-- ==== Sys2Proof/Word.lean ====
section
/-! DEFINITION. The values the block's operations work on: bytes and codes, the enumerations the
spec names (read groups, fault classes, data kinds, conversion kinds), and the records indexed by
them. -/

namespace Sys2Proof

/-- A byte (00_scope R10). -/
abbrev Byte := BitVec 8

/-- A 16-bit unsigned code: an ADC result, a table entry, the CRC remainder (00_scope R12). -/
abbrev Code := BitVec 16

/-- The six read groups in their cyclic order (10_state R27). -/
inductive ReadGroup where
  | cvA | cvB | cvC | cvD | auxA | auxB
deriving DecidableEq, Repr, Inhabited

/-- Every read group, in the cyclic order. -/
def ReadGroup.all : List ReadGroup := [.cvA, .cvB, .cvC, .cvD, .auxA, .auxB]

/-- The six fault classes in the order of their code numbers (60_exceptions R342). -/
inductive FaultClass where
  | ov | uv | packUv | cellOt | boardOt | invalidPkt
deriving DecidableEq, Repr, Inhabited

/-- Every fault class, in the order of its code number. -/
def FaultClass.all : List FaultClass := [.ov, .uv, .packUv, .cellOt, .boardOt, .invalidPkt]

/-- The data kind of a slot (10_state R42). -/
inductive Kind where
  | voltage | temperature | boardTemperature | humidity | none
deriving DecidableEq, Repr, Inhabited

/-- What an ADC conversion measures (42_transport R185). -/
inductive AdcKind where
  | cell | gpio
deriving DecidableEq, Repr, Inhabited

/-- The states of the supervisor (10_state R29). -/
inductive AcuState where
  | startup | active | charging | faulted
deriving DecidableEq, Repr, Inhabited

/-- The sign of the coulomb-count increment, `SOC_SIGN` (00_scope R8). -/
inductive SocSign where
  | plus | minus
deriving DecidableEq, Repr, Inhabited

/-- One value for each of the three slots of a group (00_scope R15). -/
structure Triple (α : Type) where
  s0 : α
  s1 : α
  s2 : α
deriving DecidableEq, Repr, Inhabited

/-- The value of slot `s`; slots are numbered 0 to 2, and every number from 2 on reads slot 2. -/
def Triple.get {α : Type} (t : Triple α) : Nat → α
  | 0 => t.s0
  | 1 => t.s1
  | _ => t.s2

/-- One value for each read group. -/
structure PerGroup (α : Type) where
  cvA : α
  cvB : α
  cvC : α
  cvD : α
  auxA : α
  auxB : α
deriving DecidableEq, Repr, Inhabited

/-- The value of group `g`. -/
def PerGroup.get {α : Type} (p : PerGroup α) : ReadGroup → α
  | .cvA => p.cvA
  | .cvB => p.cvB
  | .cvC => p.cvC
  | .cvD => p.cvD
  | .auxA => p.auxA
  | .auxB => p.auxB

/-- `p` with the value of group `g` replaced by `v`. -/
def PerGroup.set {α : Type} (p : PerGroup α) (g : ReadGroup) (v : α) : PerGroup α :=
  match g with
  | .cvA => { p with cvA := v }
  | .cvB => { p with cvB := v }
  | .cvC => { p with cvC := v }
  | .cvD => { p with cvD := v }
  | .auxA => { p with auxA := v }
  | .auxB => { p with auxB := v }

/-- The same value for every read group. -/
def PerGroup.const {α : Type} (v : α) : PerGroup α := ⟨v, v, v, v, v, v⟩

/-- One value for each fault class. -/
structure PerClass (α : Type) where
  ov : α
  uv : α
  packUv : α
  cellOt : α
  boardOt : α
  invalidPkt : α
deriving DecidableEq, Repr, Inhabited

/-- The value of class `k`. -/
def PerClass.get {α : Type} (p : PerClass α) : FaultClass → α
  | .ov => p.ov
  | .uv => p.uv
  | .packUv => p.packUv
  | .cellOt => p.cellOt
  | .boardOt => p.boardOt
  | .invalidPkt => p.invalidPkt

/-- The values of a function of the class. -/
def PerClass.ofFn {α : Type} (f : FaultClass → α) : PerClass α :=
  ⟨f .ov, f .uv, f .packUv, f .cellOt, f .boardOt, f .invalidPkt⟩

/-- The same value for every class. -/
def PerClass.const {α : Type} (v : α) : PerClass α := ⟨v, v, v, v, v, v⟩

/-- The six data bytes of a register group, byte 0 first (00_scope R15). -/
structure Six where
  d0 : Byte
  d1 : Byte
  d2 : Byte
  d3 : Byte
  d4 : Byte
  d5 : Byte
deriving DecidableEq, Repr, Inhabited

/-- The bytes in transmission order. -/
def Six.toList (d : Six) : List Byte := [d.d0, d.d1, d.d2, d.d3, d.d4, d.d5]

/-- One value for each of the four ADC modes (42_transport R186). -/
structure PerMode (α : Type) where
  m0 : α
  m1 : α
  m2 : α
  m3 : α
deriving DecidableEq, Repr, Inhabited

/-- The value of mode `m`. -/
def PerMode.get {α : Type} (p : PerMode α) (m : BitVec 2) : α :=
  if m = 0#2 then p.m0 else if m = 1#2 then p.m1 else if m = 2#2 then p.m2 else p.m3

/-- The configuration fields of one chip as the state holds them, at their widths (10_state R37). -/
structure CfgFields where
  gpioEnable : BitVec 5
  refon : BitVec 1
  adcopt : BitVec 1
  vuv : BitVec 12
  vov : BitVec 12
  dcc : BitVec 12
  dcto : BitVec 4
deriving DecidableEq, Repr, Inhabited

/-- Configuration fields as an operation receives them: numbers of any size, checked against the
widths by the operation (41_codec R152). -/
structure CfgArg where
  gpioEnable : Nat
  refon : Nat
  adcopt : Nat
  vuv : Nat
  vov : Nat
  dcc : Nat
  dcto : Nat
deriving DecidableEq, Repr, Inhabited

/-- The snapshot argument of `CTL.EVALUATE` (44_fault_comparator R231). -/
structure Snapshot where
  maxCellV : Rat
  minCellV : Rat
  packV : Rat
  maxCellTemp : Rat
  maxBoardTemp : Rat
  maxInvalidCount : Nat
  cellV : List Rat
deriving DecidableEq, Repr, Inhabited

end Sys2Proof
end

