-- ==== Sys2Proof/Config.lean ====
section
/-! DEFINITION. What an implementation fixes (00_scope R8) as one plain-data record `Config`, which
the State carries as the argument the spec says it is, and the free values: opaque constants of which
nothing can be proved. -/

namespace Sys2Proof

/-- The topology entry of one chip (10_state R36): `CSLINE[c]`, `ADDR[c]`, `CELLS[c]`, `KIND[c]`. -/
structure ChipConf where
  csLine : Nat
  addr : BitVec 4
  cells : Nat
  kind : PerGroup (Triple Kind)
deriving DecidableEq, Repr, Inhabited

/-- The command codes (30_encoding R106): `CC_WRCFG`; `CC_RD(g)`, that is `CC_RDCV[0..3]` and
`CC_RDAUX[0..1]` (43_scheduler R204); `CC_ADC(cell, mode)` and `CC_ADC(gpio, mode)`. -/
structure CmdCodes where
  wrcfg : BitVec 11
  rd : PerGroup (BitVec 11)
  adcCell : PerMode (BitVec 11)
  adcGpio : PerMode (BitVec 11)
deriving DecidableEq, Repr, Inhabited

/-- `CC_ADC(kind, mode)`. -/
def CmdCodes.adc (cc : CmdCodes) (k : AdcKind) (m : BitVec 2) : BitVec 11 :=
  match k with
  | .cell => cc.adcCell.get m
  | .gpio => cc.adcGpio.get m

/-- Where the configuration fields stand in the six bytes, as one record (30_encoding R98): bit `i` of a
field is at the `i`-th position of its list, and position `8 * j + b` is bit `b` of byte `j`. -/
structure CfgLayout where
  gpioEnable : List Nat
  refon : List Nat
  adcopt : List Nat
  vuv : List Nat
  vov : List Nat
  dcc : List Nat
  dcto : List Nat
deriving DecidableEq, Repr, Inhabited

/-- The controller configuration `CTLCFG` (10_state R38). Durations are naturals, because the spec
expects them non-negative (70_reset R387). -/
structure CtlConf where
  ovThreshV : Rat
  uvThreshV : Rat
  minPackV : Rat
  otChargeCell : Rat
  otChargeBoard : Rat
  otRunCell : Rat
  otRunBoard : Rat
  invalidCountThresh : Nat
  maxDurMs : PerClass Nat
  bmsOkHoldoffMs : Nat
  balDiffV : Rat
  balFloorV : Rat
  balTempEnableC : Rat
  balTempLimitC : Rat
  packIrOhm : Rat
  irCellCount : Nat
  capacityAh : Rat
  socSign : SocSign
  socInit : Rat
deriving DecidableEq, Repr, Inhabited

/-- Every parameter that the block takes as an argument (00_scope R8). -/
structure Config where
  chips : List ChipConf
  humidityParity : Nat
  nCellsTotal : Nat
  codes : CmdCodes
  txFill : Byte
  /-- `T_IDLE`, the chips' idle time-out (70_reset R396, 92 D39, 93 U22). The block does not track it: it
  occurs only in the hazard's statement, `Safety.wakeNeeded`. DESIGN CHOICE: in microseconds (entry 29). -/
  tIdleUs : Nat
  layout : CfgLayout
  /-- `LN` (00_scope R8, R12) as pairs of an argument and its value; an argument not listed has the value
  `Config.freeLn` gives it. DESIGN CHOICE: the values are rational, where R12 says rational and 92 D2 says
  real (entry 13). -/
  ln : List (Rat × Rat)
  ctl : CtlConf
deriving DecidableEq, Repr, Inhabited

/-- `N_CHIPS`. -/
def Config.nChips (k : Config) : Nat := k.chips.length

/-! ### Free values (opaque: no proof can use what they are) -/

/-- `LN` where the configuration lists no value (00_scope R12: "only that it is a function of its
argument"). DESIGN CHOICE: a rational, so never the true natural logarithm, only an approximation of it
(entry 13). -/
opaque Config.freeLn : Rat → Rat

/-- A quotient by zero, as a function of the dividend: no rule gives it a value (entry 22). -/
opaque Config.freeQuotient : Rat → Rat

/-- The result of `CODEC.THERM` where the spec gives none (41_codec R159); the argument is the draw. -/
opaque Config.freeTherm : Nat → Rat

/-- The byte the bus answers when no input byte is pending (20_memory R66); the argument is the
number of the transfer. -/
opaque Config.freeByte : Nat → Byte

/-- How far the microsecond clock moves beyond what the spec requires, when no input is pending; the
argument is the number of the reading (42_transport R182: "at least"). -/
opaque Config.freeLapse : Nat → Nat

/-- The level of port `OK_OUT`, which nothing drives (60_exceptions R372). -/
opaque Config.freeOkOut : Nat → Bool

/-! ### OPEN parameters of the block that `State.reset` is built with (00_scope R8) -/

/-- `CSLINE[c]` of the reset block. -/
opaque Config.openCsLine : Nat → Nat

/-- `ADDR[c]` of the reset block. -/
opaque Config.openAddr : Nat → BitVec 4

/-- Whether GPIO index `i` of chip `c` of the reset block carries a thermistor (10_state R42 (d)). -/
opaque Config.openThermistor : Nat → Nat → Bool

/-- Whether odd chip ids carry humidity in the reset block (`HUMIDITY_PARITY`). -/
opaque Config.openHumidityOdd : Bool

/-- `TX_FILL` of the reset block. -/
opaque Config.openTxFill : Byte

/-- `T_IDLE` of the reset block. -/
opaque Config.openTIdleUs : Nat

/-- `CTLCFG` of the reset block, but for `SOC_SIGN`; `fittedCtl` puts it inside its constraints. -/
opaque Config.openCtl : CtlConf

end Sys2Proof
end

