-- ==== Sys2Proof/Syntax.lean ====
section
/-! DEFINITION. The block's instructions: one constructor per row of spec/opcode_table.json, 26 host
operations with the typed arguments of 30_encoding R108 and 8 wire commands (30_encoding R106). -/

namespace Sys2Proof

/-- An instruction: a host operation (`F-OP`) or a wire command (`F-CMD`). Arguments whose range an
operation checks are naturals or byte lists of any length, so that an operand out of range can be
written and is refused. -/
inductive Instr where
  /-- `PEC.BUILD`, 40_pec R131. -/
  | pecBuild
  /-- `PEC.COMPUTE`, 40_pec R132. -/
  | pecCompute (data : List Byte)
  /-- `PEC.CHECK`, 40_pec R133; `rx0` is the PEC byte received first. -/
  | pecCheck (data : List Byte) (rx0 rx1 : Byte)
  /-- `CODEC.CMD`, 41_codec R151. -/
  | codecCmd (addr cc : Nat)
  /-- `CODEC.CFGPACK`, 41_codec R152. -/
  | codecCfgpack (f : CfgArg)
  /-- `CODEC.CFGUNPACK`, 41_codec R153. -/
  | codecCfgunpack (data : List Byte)
  /-- `CODEC.GRPUNPACK`, 41_codec R154. -/
  | codecGrpunpack (data : List Byte)
  /-- `CODEC.CMPV`, 41_codec R155. -/
  | codecCmpv (vuv vov : Nat)
  /-- `CODEC.BTEMP`, 41_codec R156. -/
  | codecBtemp (code : Code)
  /-- `CODEC.HUMID`, 41_codec R157. -/
  | codecHumid (code : Code)
  /-- `CODEC.THERM`, 41_codec R158. -/
  | codecTherm (code : Code)
  /-- `SPI.WAKEUP`, 42_transport R182. -/
  | spiWakeup (line : Nat)
  /-- `SPI.WRREG`, 42_transport R183. -/
  | spiWrreg (c cc : Nat) (data : List Byte)
  /-- `SPI.RDREG`, 42_transport R184. -/
  | spiRdreg (c cc : Nat)
  /-- `SPI.ADCSTART`, 42_transport R185. -/
  | spiAdcstart (c : Nat) (kind : AdcKind) (mode : Nat)
  /-- `SCHED.SETCFG`, 43_scheduler R201. -/
  | schedSetcfg (c : Nat) (f : CfgArg)
  /-- `SCHED.NEXT`, 43_scheduler R202. -/
  | schedNext
  /-- `SCHED.FAULTDATA`, 43_scheduler R210. -/
  | schedFaultdata
  /-- `CTL.INIT`, 44_fault_comparator R232. -/
  | ctlInit (now : Nat) (cfgOk : Bool)
  /-- `CTL.SETCHG`, 44_fault_comparator R233. -/
  | ctlSetchg (en : Bool)
  /-- `CTL.EVALUATE`, 44_fault_comparator R234. -/
  | ctlEvaluate (snap : Snapshot) (now : Nat) (packCurrent : Rat)
  /-- `LATCH.UPDATE`, 46_latch R291. -/
  | latchUpdate (imdOk bmsOk shdnValid : Bool)
  /-- `LATCH.CLEAR`, 46_latch R292. -/
  | latchClear
  /-- `LATCH.READ`, 46_latch R293. -/
  | latchRead
  /-- `FSM.ADVANCE`, 47_acu_fsm R301. -/
  | fsmAdvance (now : Nat) (shdnValid chargeReq bmsFault imdFault : Bool)
  /-- `WD.KICK`, 47_acu_fsm R315. -/
  | wdKick
  /-- `WRCFG @addr` on chip-select line `line`, 43_scheduler R203. -/
  | wrcfg (line : Nat) (addr : BitVec 4)
  /-- `RDCVA @addr`, 43_scheduler R204. -/
  | rdcva (line : Nat) (addr : BitVec 4)
  /-- `RDCVB @addr`, 43_scheduler R204. -/
  | rdcvb (line : Nat) (addr : BitVec 4)
  /-- `RDCVC @addr`, 43_scheduler R204. -/
  | rdcvc (line : Nat) (addr : BitVec 4)
  /-- `RDCVD @addr`, 43_scheduler R204. -/
  | rdcvd (line : Nat) (addr : BitVec 4)
  /-- `RDAUXA @addr`, 43_scheduler R204. -/
  | rdauxa (line : Nat) (addr : BitVec 4)
  /-- `RDAUXB @addr`, 43_scheduler R204. -/
  | rdauxb (line : Nat) (addr : BitVec 4)
  /-- `ADC(kind, mode) @addr`, 42_transport R185. -/
  | adc (line : Nat) (addr : BitVec 4) (kind : AdcKind) (mode : BitVec 2)
deriving DecidableEq, Repr, Inhabited

end Sys2Proof
end

