-- ==== Sys2Proof/WellFormed.lean ====
section
/-! DEFINITION. Which instructions have every operand in its legal range (30_encoding R119 (b),
60_exceptions R344), and which configurations the spec vouches for (70_reset R386, R387). -/

namespace Sys2Proof

/-- Every field within its width (10_state R37). -/
def CfgArg.inRange (f : CfgArg) : Bool :=
  f.gpioEnable < 32 && f.refon < 2 && f.adcopt < 2 && f.vuv < 4096 && f.vov < 4096 &&
    f.dcc < 4096 && f.dcto < 16

/-- Some chip uses the line (42_transport R182). -/
def Config.hasLine (k : Config) (line : Nat) : Bool := k.chips.any (fun ch => ch.csLine == line)

/-- Some chip answers to the address on the line. -/
def Config.hasChipAt (k : Config) (line : Nat) (addr : BitVec 4) : Bool :=
  k.chips.any (fun ch => ch.csLine == line && ch.addr == addr)

/-- Every operand of `i` is in the range the operation's rule gives it, on a block configured by `k`. -/
def Instr.wf (k : Config) : Instr → Bool
  | .pecBuild => true
  | .pecCompute _ => true
  | .pecCheck _ _ _ => true
  | .codecCmd addr cc => addr < 16 && cc < 2048
  | .codecCfgpack f => f.inRange
  | .codecCfgunpack data => data.length == 6
  | .codecGrpunpack data => data.length == 6
  | .codecCmpv vuv vov => vuv < 4096 && vov < 4096
  | .codecBtemp _ => true
  | .codecHumid _ => true
  | .codecTherm _ => true
  | .spiWakeup line => k.hasLine line
  | .spiWrreg c cc data => c < k.nChips && cc < 2048 && data.length == 6
  | .spiRdreg c cc => c < k.nChips && cc < 2048
  | .spiAdcstart c _ mode => c < k.nChips && mode < 4
  | .schedSetcfg c f => c < k.nChips && f.inRange
  | .schedNext => true
  | .schedFaultdata => true
  | .ctlInit _ _ => true
  | .ctlSetchg _ => true
  | .ctlEvaluate snap _ _ => snap.cellV.length == k.nCellsTotal
  | .latchUpdate _ _ _ => true
  | .latchClear => true
  | .latchRead => true
  | .fsmAdvance _ _ _ _ _ => true
  | .wdKick => true
  | .wrcfg line addr => k.hasChipAt line addr
  | .rdcva line addr => k.hasChipAt line addr
  | .rdcvb line addr => k.hasChipAt line addr
  | .rdcvc line addr => k.hasChipAt line addr
  | .rdcvd line addr => k.hasChipAt line addr
  | .rdauxa line addr => k.hasChipAt line addr
  | .rdauxb line addr => k.hasChipAt line addr
  | .adc line addr _ _ => k.hasChipAt line addr

/-- `KIND` of the three slots of the cell-voltage group whose first cell slot is `first`, on a chip of
`cells` cells (10_state R42 (a)). -/
def cellKinds (cells first : Nat) : Triple Kind :=
  let k := fun slot => if slot < cells then Kind.voltage else Kind.none
  ⟨k first, k (first + 1), k (first + 2)⟩

/-- A kind a GPIO index other than 4 may have (10_state R42 (d)). -/
def Kind.isGpio (k : Kind) : Bool := k == .temperature || k == .none

/-- The kind of GPIO index 4 of chip `c` (10_state R42 (c)). -/
def gpio4Kind (parity c : Nat) : Kind :=
  if c % 2 = parity then .humidity else .boardTemperature

/-- The topology entry of chip `c` obeys 10_state R41 and R42. -/
def ChipConf.valid (parity c : Nat) (ch : ChipConf) : Bool :=
  ch.cells == (if c % 2 = 0 then 12 else 9) &&
    ch.kind.cvA == cellKinds ch.cells 0 && ch.kind.cvB == cellKinds ch.cells 3 &&
    ch.kind.cvC == cellKinds ch.cells 6 && ch.kind.cvD == cellKinds ch.cells 9 &&
    ch.kind.auxA.s0.isGpio && ch.kind.auxA.s1.isGpio && ch.kind.auxA.s2.isGpio &&
    ch.kind.auxB.s0.isGpio && ch.kind.auxB.s1 == gpio4Kind parity c && ch.kind.auxB.s2.isGpio

/-- No two chips share a line and an address (70_reset R386). -/
def distinctChips : List ChipConf → Bool
  | [] => true
  | ch :: rest =>
    !(rest.any fun d => d.csLine == ch.csLine && d.addr == ch.addr) && distinctChips rest

/-- The topology satisfies 70_reset R386. No operation asks for it: "The block checks none of this". DESIGN
CHOICE: on a topology that breaks it every operation still runs by its rule, as R386 says, where 93 U16 has
the treatment `refuse` (entry 33). -/
def Config.topoValid (k : Config) : Bool :=
  k.humidityParity < 2 && k.chips.zipIdx.all (fun p => p.1.valid k.humidityParity p.2) &&
    distinctChips k.chips && (k.chips.map ChipConf.cells).sum == k.nCellsTotal

/-- The controller configuration satisfies 70_reset R387. -/
def CtlConf.valid (k : CtlConf) : Bool :=
  decide (k.uvThreshV < k.ovThreshV) && decide (k.otChargeCell ≤ k.otRunCell) &&
    decide (k.otChargeBoard ≤ k.otRunBoard) && decide (0 ≤ k.balDiffV) &&
    decide (k.balTempEnableC ≤ k.balTempLimitC) && decide (0 ≤ k.packIrOhm) &&
    decide (0 < k.irCellCount) && decide (0 < k.capacityAh) && decide (0 ≤ k.socInit) &&
    decide (k.socInit ≤ 1)

/-- The positions of every field, one list. -/
def CfgLayout.positions (l : CfgLayout) : List Nat :=
  l.gpioEnable ++ l.refon ++ l.adcopt ++ l.vuv ++ l.vov ++ l.dcc ++ l.dcto

/-- What 30_encoding R98 fixes of a layout: each field's width, the bytes it lives in, and no bit twice. -/
def CfgLayout.valid (l : CfgLayout) : Bool :=
  l.gpioEnable.length == 5 && l.refon.length == 1 && l.adcopt.length == 1 && l.vuv.length == 12 &&
    l.vov.length == 12 && l.dcc.length == 12 && l.dcto.length == 4 &&
    (l.gpioEnable ++ l.refon ++ l.adcopt).all (fun p => p < 8) &&
    (l.vuv ++ l.vov).all (fun p => 8 ≤ p && p < 32) &&
    (l.dcc ++ l.dcto).all (fun p => 32 ≤ p && p < 48) && decide l.positions.Nodup

/-- The fifteen command codes in the order in which the decoder tries them. -/
def CmdCodes.list (cc : CmdCodes) : List (BitVec 11) :=
  [cc.wrcfg, cc.rd.cvA, cc.rd.cvB, cc.rd.cvC, cc.rd.cvD, cc.rd.auxA, cc.rd.auxB,
    cc.adcCell.m0, cc.adcCell.m1, cc.adcCell.m2, cc.adcCell.m3,
    cc.adcGpio.m0, cc.adcGpio.m1, cc.adcGpio.m2, cc.adcGpio.m3]

/-- No two wire commands share a command code: what a reader of frames needs to tell them apart. -/
def CmdCodes.distinct (cc : CmdCodes) : Bool := decide cc.list.Nodup

end Sys2Proof
end

