-- ==== Sys2Proof/Decode.lean ====
section
/-! DEFINITION. Decoding of a host's request into an instruction, total, rejecting by name; and the
encoder, written from the same tables (30_encoding R91, R106, R108). A request is either an `OPSEL`
byte with an operand block (`F-OP`: the arguments have no binary form, R107), or a wire command: the
two frame bytes of `F-CMD` and the chip-select line they go out on. -/

namespace Sys2Proof

/-- The operand block of a host operation: one slot per argument name of 30_encoding R108. Slots an
operation does not name are not read by it. -/
structure Operands where
  data : List Byte
  rx0 : Byte
  rx1 : Byte
  addr : Nat
  cc : Nat
  fields : CfgArg
  vuv : Nat
  vov : Nat
  code : Code
  line : Nat
  chip : Nat
  kind : AdcKind
  mode : Nat
  now : Nat
  cfgOk : Bool
  en : Bool
  snap : Snapshot
  packCurrent : Rat
  imdOk : Bool
  bmsOk : Bool
  shdnValid : Bool
  chargeReq : Bool
  bmsFault : Bool
  imdFault : Bool
deriving DecidableEq, Repr, Inhabited

/-- Configuration fields that are all zero. -/
def CfgArg.zero : CfgArg := ⟨0, 0, 0, 0, 0, 0, 0⟩

/-- A snapshot of zeros with no cell listed. -/
def Snapshot.zero : Snapshot := ⟨0, 0, 0, 0, 0, 0, []⟩

/-- The operand block of zeros: six zero data bytes, every number 0, every boolean false. -/
def Operands.zero : Operands :=
  { data := List.replicate 6 0, rx0 := 0, rx1 := 0, addr := 0, cc := 0, fields := CfgArg.zero,
    vuv := 0, vov := 0, code := 0, line := 0, chip := 0, kind := .cell, mode := 0, now := 0,
    cfgOk := false, en := false, snap := Snapshot.zero, packCurrent := 0, imdOk := false,
    bmsOk := false, shdnValid := false, chargeReq := false, bmsFault := false, imdFault := false }

/-- What the host hands to the block: the unit of fetch. -/
inductive Request where
  /-- A host operation, `F-OP`. -/
  | op (opsel : Byte) (args : Operands)
  /-- A wire command, `F-CMD`: byte 0, byte 1, and the chip-select line. -/
  | wire (b0 b1 : Byte) (line : Nat)
deriving DecidableEq, Repr, Inhabited

/-- Why a request names no instruction. -/
inductive DecodeReject where
  /-- The `OPSEL` names no operation (30_encoding R119 (c)). -/
  | unknownOpsel (opsel : Byte)
  /-- Bit 7 of a frame's byte 0 is clear (30_encoding R119 (a)). -/
  | notAddressed (b0 : Byte)
  /-- The frame's command code is none of the eight wire commands' (30_encoding R119 (f)). -/
  | unknownCommand (cc : BitVec 11)
deriving DecidableEq, Repr

/-- The defaults of the command codes (93_implementation_defined G1). PRESUMED: from general
knowledge of the chip family, not from the source; parameters of every rule (entry 7). -/
def defaultCodes : CmdCodes :=
  { wrcfg := 0x001#11,
    rd := { cvA := 0x004#11, cvB := 0x006#11, cvC := 0x008#11, cvD := 0x00A#11,
            auxA := 0x00C#11, auxB := 0x00E#11 },
    adcCell := { m0 := 0x260#11, m1 := 0x2E0#11, m2 := 0x360#11, m3 := 0x3E0#11 },
    adcGpio := { m0 := 0x460#11, m1 := 0x4E0#11, m2 := 0x560#11, m3 := 0x5E0#11 } }

/-- The operation an `OPSEL` byte names, with its arguments taken from the operand block
(30_encoding R108). -/
def decodeOp (opsel : Byte) (o : Operands) : Except DecodeReject Instr :=
  match opsel.toNat with
  | 0x01 => .ok .pecBuild
  | 0x02 => .ok (.pecCompute o.data)
  | 0x03 => .ok (.pecCheck o.data o.rx0 o.rx1)
  | 0x10 => .ok (.codecCmd o.addr o.cc)
  | 0x11 => .ok (.codecCfgpack o.fields)
  | 0x12 => .ok (.codecCfgunpack o.data)
  | 0x13 => .ok (.codecGrpunpack o.data)
  | 0x14 => .ok (.codecCmpv o.vuv o.vov)
  | 0x15 => .ok (.codecBtemp o.code)
  | 0x16 => .ok (.codecHumid o.code)
  | 0x17 => .ok (.codecTherm o.code)
  | 0x20 => .ok (.spiWakeup o.line)
  | 0x21 => .ok (.spiWrreg o.chip o.cc o.data)
  | 0x22 => .ok (.spiRdreg o.chip o.cc)
  | 0x23 => .ok (.spiAdcstart o.chip o.kind o.mode)
  | 0x30 => .ok (.schedSetcfg o.chip o.fields)
  | 0x31 => .ok .schedNext
  | 0x32 => .ok .schedFaultdata
  | 0x40 => .ok (.ctlInit o.now o.cfgOk)
  | 0x41 => .ok (.ctlSetchg o.en)
  | 0x42 => .ok (.ctlEvaluate o.snap o.now o.packCurrent)
  | 0x50 => .ok (.latchUpdate o.imdOk o.bmsOk o.shdnValid)
  | 0x51 => .ok .latchClear
  | 0x52 => .ok .latchRead
  | 0x60 => .ok (.fsmAdvance o.now o.shdnValid o.chargeReq o.bmsFault o.imdFault)
  | 0x61 => .ok .wdKick
  | _ => .error (.unknownOpsel opsel)

/-- The wire command a command code stands for, tried in the order of the table of 30_encoding R106. -/
def decodeCommand (k : CmdCodes) (cc : BitVec 11) (line : Nat) (addr : BitVec 4) :
    Except DecodeReject Instr :=
  if cc = k.wrcfg then .ok (.wrcfg line addr)
  else if cc = k.rd.cvA then .ok (.rdcva line addr)
  else if cc = k.rd.cvB then .ok (.rdcvb line addr)
  else if cc = k.rd.cvC then .ok (.rdcvc line addr)
  else if cc = k.rd.cvD then .ok (.rdcvd line addr)
  else if cc = k.rd.auxA then .ok (.rdauxa line addr)
  else if cc = k.rd.auxB then .ok (.rdauxb line addr)
  else if cc = k.adcCell.m0 then .ok (.adc line addr .cell 0#2)
  else if cc = k.adcCell.m1 then .ok (.adc line addr .cell 1#2)
  else if cc = k.adcCell.m2 then .ok (.adc line addr .cell 2#2)
  else if cc = k.adcCell.m3 then .ok (.adc line addr .cell 3#2)
  else if cc = k.adcGpio.m0 then .ok (.adc line addr .gpio 0#2)
  else if cc = k.adcGpio.m1 then .ok (.adc line addr .gpio 1#2)
  else if cc = k.adcGpio.m2 then .ok (.adc line addr .gpio 2#2)
  else if cc = k.adcGpio.m3 then .ok (.adc line addr .gpio 3#2)
  else .error (.unknownCommand cc)

/-- `addr[3:0]` of an `F-CMD`: bits 6:3 of byte 0 (30_encoding R91). -/
def frameAddr (b0 : Byte) : BitVec 4 := b0.extractLsb' 3 4

/-- `cc[10:0]` of an `F-CMD`: bits 2:0 of byte 0, then byte 1 (30_encoding R91). -/
def frameCode (b0 b1 : Byte) : BitVec 11 := b0.extractLsb' 0 3 ++ b1

/-- Decode a request on a block whose command codes are `k`. -/
def decode (k : CmdCodes) : Request → Except DecodeReject Instr
  | .op opsel o => decodeOp opsel o
  | .wire b0 b1 line =>
    if b0.getLsbD 7 then decodeCommand k (frameCode b0 b1) line (frameAddr b0)
    else .error (.notAddressed b0)

/-- `F-CMD`: `byte0 = 1 ++ addr ++ cc[10:8]`, `byte1 = cc[7:0]` (30_encoding R91). -/
def frameBytes (addr : BitVec 4) (cc : BitVec 11) : Byte × Byte :=
  (1#1 ++ addr ++ cc.extractLsb' 8 3, cc.extractLsb' 0 8)

/-- The request that is the wire command with code `cc` at `addr` on `line`. -/
def encodeFrame (line : Nat) (addr : BitVec 4) (cc : BitVec 11) : Request :=
  .wire (frameBytes addr cc).1 (frameBytes addr cc).2 line

/-- The request of an instruction (30_encoding R106, R108). -/
def encode (k : CmdCodes) : Instr → Request
  | .pecBuild => .op 0x01 Operands.zero
  | .pecCompute data => .op 0x02 { Operands.zero with data := data }
  | .pecCheck data rx0 rx1 => .op 0x03 { Operands.zero with data := data, rx0 := rx0, rx1 := rx1 }
  | .codecCmd addr cc => .op 0x10 { Operands.zero with addr := addr, cc := cc }
  | .codecCfgpack f => .op 0x11 { Operands.zero with fields := f }
  | .codecCfgunpack data => .op 0x12 { Operands.zero with data := data }
  | .codecGrpunpack data => .op 0x13 { Operands.zero with data := data }
  | .codecCmpv vuv vov => .op 0x14 { Operands.zero with vuv := vuv, vov := vov }
  | .codecBtemp code => .op 0x15 { Operands.zero with code := code }
  | .codecHumid code => .op 0x16 { Operands.zero with code := code }
  | .codecTherm code => .op 0x17 { Operands.zero with code := code }
  | .spiWakeup line => .op 0x20 { Operands.zero with line := line }
  | .spiWrreg c cc data => .op 0x21 { Operands.zero with chip := c, cc := cc, data := data }
  | .spiRdreg c cc => .op 0x22 { Operands.zero with chip := c, cc := cc }
  | .spiAdcstart c kind mode =>
    .op 0x23 { Operands.zero with chip := c, kind := kind, mode := mode }
  | .schedSetcfg c f => .op 0x30 { Operands.zero with chip := c, fields := f }
  | .schedNext => .op 0x31 Operands.zero
  | .schedFaultdata => .op 0x32 Operands.zero
  | .ctlInit now cfgOk => .op 0x40 { Operands.zero with now := now, cfgOk := cfgOk }
  | .ctlSetchg en => .op 0x41 { Operands.zero with en := en }
  | .ctlEvaluate snap now cur =>
    .op 0x42 { Operands.zero with snap := snap, now := now, packCurrent := cur }
  | .latchUpdate i b s =>
    .op 0x50 { Operands.zero with imdOk := i, bmsOk := b, shdnValid := s }
  | .latchClear => .op 0x51 Operands.zero
  | .latchRead => .op 0x52 Operands.zero
  | .fsmAdvance now s c b i =>
    .op 0x60 { Operands.zero with
      now := now, shdnValid := s, chargeReq := c, bmsFault := b, imdFault := i }
  | .wdKick => .op 0x61 Operands.zero
  | .wrcfg line addr => encodeFrame line addr k.wrcfg
  | .rdcva line addr => encodeFrame line addr k.rd.cvA
  | .rdcvb line addr => encodeFrame line addr k.rd.cvB
  | .rdcvc line addr => encodeFrame line addr k.rd.cvC
  | .rdcvd line addr => encodeFrame line addr k.rd.cvD
  | .rdauxa line addr => encodeFrame line addr k.rd.auxA
  | .rdauxb line addr => encodeFrame line addr k.rd.auxB
  | .adc line addr kind mode => encodeFrame line addr (k.adc kind mode)

/-- The request whose table bits are `w`: with 8 bits an `OPSEL` byte with the operand block of zeros,
with 16 bits a frame (byte 0 is the word's high byte, as the table lays it out) on line 0. -/
def requestOfWord (nbits w : Nat) : Option Request :=
  if nbits = 8 then some (.op (BitVec.ofNat 8 w) Operands.zero)
  else if nbits = 16 then some (.wire (BitVec.ofNat 8 (w / 256)) (BitVec.ofNat 8 w) 0)
  else none

/-- The instruction the decoder reads from the bits `w` of an opcode-table row, with the default
command codes. -/
def decodeTableWord (nbits w : Nat) : Option Instr :=
  match requestOfWord nbits w with
  | some r => (decode defaultCodes r).toOption
  | none => none

end Sys2Proof
end

