-- ==== Sys2Proof/Machine/Params.lean ====
section
/-! DEFINITION. The numbers the spec fixes (00_scope R8) and the configuration `State.reset` is built
with. -/

namespace Sys2Proof.Machine

/-- `POLY`, the CRC polynomial constant (40_pec R131). -/
def poly : Code := 0x4599#16

/-- `PEC_SEED`, the initial remainder (40_pec R132). -/
def pecSeed : Code := 16#16

/-- `T_CS_US`: chip-select low time before the wake-up transfer, a minimum (90_conflicts C1). -/
def tCsUs : Nat := 1

/-- `T_WAKE_US`: wait after wake-up, a minimum (42_transport R182). -/
def tWakeUs : Nat := 400

/-- `ADC_DELAY_US[mode]` (42_transport R186). -/
def adcDelayUs (mode : BitVec 2) : Nat :=
  (PerMode.mk 13000 1300 3100 203000).get mode

/-- `T_FAULTED_NUDGE_MS` (47_acu_fsm R312). -/
def tFaultedNudgeMs : Nat := 1000

/-- `N_CHIPS` of the reset block: the default of 00_scope R8. -/
def defaultNChips : Nat := 12

/-- The data kind of GPIO index `i` of chip `c` in the reset block, where the spec leaves it open
(10_state R42 (d)). -/
def openGpioKind (c i : Nat) : Kind :=
  if Config.openThermistor c i then .temperature else .none

/-- `HUMIDITY_PARITY` of the reset block. -/
def openParity : Nat := if Config.openHumidityOdd then 1 else 0

/-- The topology entry of chip `c` of the reset block: cells and kinds by 10_state R41 and R42, what
the spec leaves open from Config's opaque constants. -/
def defaultChip (c : Nat) : ChipConf :=
  let cells := if c % 2 = 0 then 12 else 9
  { csLine := Config.openCsLine c, addr := Config.openAddr c, cells := cells,
    kind :=
      { cvA := cellKinds cells 0, cvB := cellKinds cells 3, cvC := cellKinds cells 6,
        cvD := cellKinds cells 9,
        auxA := ⟨openGpioKind c 0, openGpioKind c 1, openGpioKind c 2⟩,
        auxB := ⟨openGpioKind c 3, gpio4Kind openParity c, openGpioKind c 5⟩ } }

/-- The layout of 30_encoding R99 to R103. PRESUMED, the family's (93_implementation_defined G2, entry
8); a parameter of every rule. -/
def defaultLayout : CfgLayout :=
  { gpioEnable := [3, 4, 5, 6, 7], refon := [2], adcopt := [0],
    vuv := [8, 9, 10, 11, 12, 13, 14, 15, 16, 17, 18, 19],
    vov := [20, 21, 22, 23, 24, 25, 26, 27, 28, 29, 30, 31],
    dcc := [32, 33, 34, 35, 36, 37, 38, 39, 40, 41, 42, 43],
    dcto := [44, 45, 46, 47] }

/-- A rational as a non-negative one; every non-negative rational is reached. -/
def nonneg (q : Rat) : Rat := if q < 0 then -q else q

/-- A rational as a positive one; every positive rational is reached. -/
def positive (q : Rat) : Rat := if q < 0 then 1 / (1 - q) else q + 1

/-- `min(1, max(0, q))` (45_balance_soc R273); every rational of the closed interval 0 to 1 is
reached. -/
def clamp01 (q : Rat) : Rat := if q < 0 then 0 else if 1 < q then 1 else q

/-- A controller configuration inside the constraints of 70_reset R387 and 45_balance_soc R274; every one
that meets them is reached (entry 5). -/
def fittedCtl (k : CtlConf) : CtlConf :=
  { k with
    ovThreshV := k.uvThreshV + positive k.ovThreshV
    otRunCell := k.otChargeCell + nonneg k.otRunCell
    otRunBoard := k.otChargeBoard + nonneg k.otRunBoard
    balDiffV := nonneg k.balDiffV
    balTempLimitC := k.balTempEnableC + nonneg k.balTempLimitC
    packIrOhm := nonneg k.packIrOhm
    irCellCount := k.irCellCount + 1
    capacityAh := positive k.capacityAh
    socInit := clamp01 k.socInit }

/-- The configuration `State.reset` is built with (entries 5 to 8): the spec's defaults where
00_scope R8 gives one, opaque constants where it gives none. -/
def defaultConfig : Config :=
  { chips := (List.range defaultNChips).map defaultChip,
    humidityParity := openParity,
    nCellsTotal := 126,
    codes := defaultCodes,
    txFill := Config.openTxFill,
    tIdleUs := Config.openTIdleUs,
    layout := defaultLayout,
    ln := [],
    ctl := { fittedCtl Config.openCtl with socSign := .plus } }

end Sys2Proof.Machine
end

