-- ==== Sys2Proof/Machine/State.lean ====
section
/-! DEFINITION. The state of the block, one record per owning unit (10_state R21), the value after
reset (10_state R46, 70_reset R381), what an operation answers, and the machine's ways to stop. -/

namespace Sys2Proof.Machine

/-- A fault that stops the machine: there is none. "None of them stops the block" (60_exceptions
R340); fault classes, PEC mismatches and impossible states are ordinary state changes. -/
inductive Fault where
deriving DecidableEq, Repr

/-- A refusal that stops the machine. A refusal of the spec (00_scope R13) is no such thing: it is a
next state, see `RefusalReason`. -/
inductive Refusal where
  /-- Raised by an arm of `exec` for an instruction without a meaning; no arm raises it. Safe: the
  machine stops where the hardware goes on. -/
  | notModelled (mnemonic : String)
deriving DecidableEq, Repr

/-- Why an operation is refused (60_exceptions R344). The operation then changes nothing; the machine
goes on. -/
inductive RefusalReason where
  | tableNotBuilt
  | badOperand
  | fieldOutOfRange
  | badLine
  | alreadyInitialised
  | notInitialised
  | timeWentBackwards
  /-- A parameter value that 93_implementation_defined U17 excludes: `IR_CELL_COUNT` 0 or `CAPACITY_AH`
  not positive. The name is the model's (entry 22). -/
  | parameterExcluded
  /-- The request names no operation (30_encoding R119 (a), (c), (f)). -/
  | unknownRequest (why : DecodeReject)
deriving DecidableEq, Repr

/-- The verdict on one chip's packet in a result of `SCHED.NEXT` (43_scheduler R205, R209). -/
inductive Validity where
  | valid | invalid | skipped
deriving DecidableEq, Repr, Inhabited

/-- What `SCHED.NEXT` returns for one chip: the decoded codes or absent, and the verdict. -/
structure ChipReport where
  codes : Option (Triple Code)
  validity : Validity
deriving DecidableEq, Repr, Inhabited

/-- The result of `CTL.EVALUATE` (44_fault_comparator R248). -/
structure ControllerStatus where
  hasFault : Bool
  bmsOk : Bool
  soc : Rat
  bal : List Bool
  lastOk : PerClass Nat
  /-- `LAST_NOT_OK`, none before the first not-ok tick (10_state R39; entry 15). -/
  lastNotOk : Option Nat
  /-- `LAST_EVAL`, one of "all timestamps" (10_state R33; entry 32). -/
  lastEval : Nat
deriving DecidableEq, Repr, Inhabited

/-- The actions of a supervisor tick (47_acu_fsm R316). -/
inductive Action where
  | balEnable
  | balDisable
  | wdRearm
  | wdDisable
  | latchAssert
  | latchDeassert
  | recordEntry (now : Nat)
deriving DecidableEq, Repr

/-- The result of an operation that is done (30_encoding R108). -/
inductive Result where
  | none
  | bytes (l : List Byte)
  | verdict (b : Bool)
  | fields (f : CfgFields)
  | codes (t : Triple Code)
  | comparison (uvCode ovCode : Nat)
  | quantity (q : Rat)
  | group (data : List Byte) (pecOk : Bool)
  | packet (r : ChipReport)
  | scheduled (g : ReadGroup) (chips : List ChipReport)
  /-- `SCHED.NEXT` found `GRP` outside the six groups (60_exceptions R349). -/
  | restarted
  | faultData (maxAll : Nat) (maxChip : List Nat) (cycle : Nat)
  | status (st : ControllerStatus)
  | cleared (b : Bool)
  | latches (bms imd shdn isFaulted : Bool)
  | advanced (state : AcuState) (actions : List Action)
deriving DecidableEq, Repr

/-- The outcome of an operation (00_scope R13). -/
inductive OpOutcome where
  | done (r : Result)
  | refused (why : RefusalReason)
deriving DecidableEq, Repr

/-- One piece of port activity (60_exceptions R370). A level `true` is high (for `LATCH_EN`:
asserted). -/
inductive PortEvent where
  | cs (line : Nat) (level : Bool)
  | xfer (tx rx : Byte)
  /-- A wait of at least so many microseconds. -/
  | wait (us : Nat)
  | wdKick (level : Bool)
  | latchEn (level : Bool)
deriving DecidableEq, Repr

/-- The ports of the block and the environment behind them (60_exceptions R370; entries 9 to 11). -/
structure Ports where
  /-- The chip-select lines that are low; every other `CS[L]` is 1 (10_state R44). -/
  csLow : List Nat
  /-- Port activity so far, oldest first. -/
  trace : List PortEvent
  /-- Input: the bytes the bus will answer at the next transfers. -/
  rx : List Byte
  /-- Number of transfers made; indexes `Config.freeByte`. -/
  xfers : Nat
  /-- The last reading of the microsecond clock. -/
  clkUs : Nat
  /-- Input: how far the clock moves by itself at its next readings. -/
  lapses : List Nat
  /-- Number of clock readings made; indexes `Config.freeLapse`. -/
  clockReads : Nat
deriving DecidableEq, Repr, Inhabited

/-- `CS[L]` (10_state R44). -/
def Ports.cs (p : Ports) (line : Nat) : Bool := !p.csLow.contains line

/-- Unit U1 (10_state R22, R23). -/
structure PecUnit where
  table : Vector Code 256
  tableValid : Bool
deriving DecidableEq, Repr, Inhabited

/-- What U4 keeps for one (chip, group) pair: `VALID`, `INVCNT`, `SAMPLE` (10_state R25, R31, R32). -/
structure Pair where
  valid : Bool
  invCnt : Nat
  sample : Triple (Option Code)
deriving DecidableEq, Repr, Inhabited

/-- A pair after reset. -/
def Pair.reset : Pair := ⟨false, 0, ⟨none, none, none⟩⟩

/-- What U4 keeps for one chip: `CFG[c]` and its six pairs (10_state R37). -/
structure ChipRec where
  cfg : CfgFields
  pairs : PerGroup Pair
deriving DecidableEq, Repr, Inhabited

/-- Configuration fields after reset (10_state R37). -/
def zeroFields : CfgFields := ⟨0, 0, 0, 0, 0, 0, 0⟩

/-- A chip's record after reset. -/
def ChipRec.reset : ChipRec := ⟨zeroFields, PerGroup.const Pair.reset⟩

/-- Unit U4 (43_scheduler R200). `grp` is the 3-bit encoding of `GRP` (10_state R27). -/
structure SchedUnit where
  grp : BitVec 3
  cycle : Nat
  chips : List ChipRec
deriving DecidableEq, Repr, Inhabited

/-- Unit U5 (10_state R33, R39). -/
structure CtlUnit where
  ready : Bool
  cfgOk : Bool
  fault : PerClass Bool
  hasFault : Bool
  bmsOk : Bool
  notOkSeen : Bool
  chgEn : Bool
  balTempOk : Bool
  bal : List Bool
  lastOk : PerClass Nat
  lastNotOk : Nat
  lastEval : Nat
  soc : Rat
deriving DecidableEq, Repr, Inhabited

/-- Unit U6 (10_state R34). -/
structure LatchUnit where
  latchBms : Bool
  latchImd : Bool
  latchShdn : Bool
  obsBmsOk : Bool
  obsImdOk : Bool
  obsShdnOk : Bool
deriving DecidableEq, Repr, Inhabited

/-- Unit U7 (10_state R29, R35, R40). -/
structure FsmUnit where
  state : AcuState
  faultEntry : Nat
  wdArmed : Bool
  latchOut : Bool
  wdOut : Bool
deriving DecidableEq, Repr, Inhabited

/-- The whole block. -/
structure State where
  /-- The parameters the block was built with; no operation writes them (10_state R36, R38). -/
  conf : Config
  /-- The host's pending requests, the next one first (entry 1). -/
  reqs : List Request
  /-- The outcomes of the operations so far, oldest first (70_reset R384). -/
  outcomes : List OpOutcome
  /-- The sticky mark that a refusal happened (00_scope R13). -/
  refusalMark : Bool
  /-- Counter of the free values of `CODEC.THERM` and `OK_OUT` (entry 13). -/
  draws : Nat
  /-- The level of port `OK_OUT`, which no rule drives (60_exceptions R372). -/
  okOut : Bool
  ports : Ports
  /-- U1. -/
  pec : PecUnit
  /-- U3: `ADC_READY_AT[c]` (10_state R43). -/
  adcReadyAt : List Nat
  /-- U4. -/
  sched : SchedUnit
  /-- U5. -/
  ctl : CtlUnit
  /-- U6. -/
  latch : LatchUnit
  /-- U7. -/
  fsm : FsmUnit
deriving DecidableEq, Repr

/-- The ports after reset: every line high, nothing sent (70_reset R382). The clock reading and the
counters are DESIGN CHOICE 0 (entries 9, 10). -/
def Ports.reset : Ports := ⟨[], [], [], 0, 0, [], 0⟩

/-- U1 after reset. The table holds no value (10_state R22); DESIGN CHOICE zeros (entry 14). -/
def PecUnit.reset : PecUnit := ⟨Vector.replicate 256 0, false⟩

/-- U4 after reset, for `n` chips. -/
def SchedUnit.reset (n : Nat) : SchedUnit := ⟨0#3, 0, List.replicate n ChipRec.reset⟩

/-- U5 after reset. The four timestamps hold no value (10_state R39); DESIGN CHOICE 0 (entry 15). -/
def CtlUnit.reset (k : Config) : CtlUnit :=
  { ready := false, cfgOk := false, fault := PerClass.const false, hasFault := false,
    bmsOk := true, notOkSeen := false, chgEn := false, balTempOk := false,
    bal := List.replicate k.nCellsTotal false, lastOk := PerClass.const 0, lastNotOk := 0,
    lastEval := 0, soc := k.ctl.socInit }

/-- U6 after reset. -/
def LatchUnit.reset : LatchUnit := ⟨false, false, false, true, true, true⟩

/-- U7 after reset. `FAULT_ENTRY` holds no value (10_state R40); DESIGN CHOICE 0 (entry 15). -/
def FsmUnit.reset : FsmUnit := ⟨.startup, 0, true, false, false⟩

/-- A fresh block with parameters `k` (70_reset R380, R381). -/
def State.resetWith (k : Config) : State :=
  { conf := k, reqs := [], outcomes := [], refusalMark := false, draws := 0, okOut := false,
    ports := Ports.reset, pec := PecUnit.reset, adcReadyAt := List.replicate k.nChips 0,
    sched := SchedUnit.reset k.nChips, ctl := CtlUnit.reset k, latch := LatchUnit.reset,
    fsm := FsmUnit.reset }

/-- The block right after reset. -/
def State.reset : State := State.resetWith defaultConfig

end Sys2Proof.Machine
end

