-- ==== Sys2Proof/Machine/Ops.lean ====
section
/-! DEFINITION. The operations every meaning is written with: concluding an operation (done or
refused), the port primitives of 00_scope R11, the chip store of U4, the encodings of `GRP` and
`ACU_STATE`, and the supervisor's actions with entry to and exit from `FAULTED`. -/

namespace Sys2Proof.Machine

/-! ### Outcomes (00_scope R13) -/

/-- What an operation answers: a result with the state it leaves, or the reason it is refused. -/
abbrev Answer := Except RefusalReason (Result × State)

/-- A refused operation: no state of the block changes, no port is driven, no result; the refusal is
recorded and the sticky mark set (00_scope R13, entry 3). -/
def refuse (why : RefusalReason) (s : State) : State :=
  { s with outcomes := s.outcomes ++ [.refused why], refusalMark := true }

/-- An operation that is done with result `r` in the state `s` its writes leave. -/
def finish (r : Result) (s : State) : State :=
  { s with outcomes := s.outcomes ++ [.done r] }

/-- Every operation ends in exactly one of done and refused, and the block goes on (00_scope R13). -/
def conclude (s : State) (a : Answer) : Host.Outcome State Fault Refusal :=
  .next (match a with
    | .ok (r, t) => finish r t
    | .error why => refuse why s)

/-! ### Ports (00_scope R11, 60_exceptions R370) -/

/-- `p` with one more piece of port activity. -/
def Ports.emit (e : PortEvent) (p : Ports) : Ports := { p with trace := p.trace ++ [e] }

/-- `CsLow(L)`. -/
def Ports.csDriveLow (line : Nat) (p : Ports) : Ports :=
  { p with csLow := if p.csLow.contains line then p.csLow else line :: p.csLow,
           trace := p.trace ++ [.cs line false] }

/-- `CsHigh(L)`. -/
def Ports.csDriveHigh (line : Nat) (p : Ports) : Ports :=
  { p with csLow := p.csLow.filter (fun l => l != line), trace := p.trace ++ [.cs line true] }

/-- The byte the bus answers at the next transfer: the pending input, or any value (20_memory R66). -/
def Ports.nextByte (p : Ports) : Byte := p.rx.headD (Config.freeByte p.xfers)

/-- `Xfer(b)`, full duplex: the byte received, and the ports after (42_transport R180). -/
def Ports.xfer (tx : Byte) (p : Ports) : Byte × Ports :=
  (p.nextByte,
   { p with rx := p.rx.tail, xfers := p.xfers + 1, trace := p.trace ++ [.xfer tx p.nextByte] })

/-- `Xfer` of each byte in order: the bytes received, and the ports after. -/
def Ports.xferAll : List Byte → Ports → List Byte × Ports
  | [], p => ([], p)
  | tx :: rest, p =>
    let r := p.xfer tx
    let q := Ports.xferAll rest r.2
    (r.1 :: q.1, q.2)

/-- How far the microsecond clock moves by itself up to its next reading (entry 10). -/
def Ports.lapse (p : Ports) : Nat := p.lapses.headD (Config.freeLapse p.clockReads)

/-- The clock moved by `n` microseconds and its own lapse, and read. -/
def Ports.tick (n : Nat) (p : Ports) : Ports :=
  { p with clkUs := p.clkUs + n + p.lapse, lapses := p.lapses.tail, clockReads := p.clockReads + 1 }

/-- `WaitUs(n)`: at least `n` microseconds of the injected clock pass. -/
def Ports.waitUs (n : Nat) (p : Ports) : Ports := (p.tick n).emit (.wait n)

/-- `NowUs()`: the reading, and the ports after. -/
def Ports.nowUs (p : Ports) : Nat × Ports := ((p.tick 0).clkUs, p.tick 0)

/-! ### The chip store of U4 -/

/-- The record of chip `c`. -/
def SchedUnit.chip (u : SchedUnit) (c : Nat) : ChipRec := u.chips.getD c ChipRec.reset

/-- Replace the record of chip `c`. -/
def SchedUnit.setChip (u : SchedUnit) (c : Nat) (r : ChipRec) : SchedUnit :=
  { u with chips := u.chips.set c r }

/-- `VALID`, `INVCNT` and `SAMPLE` of the pair (`c`, `g`). -/
def SchedUnit.pair (u : SchedUnit) (c : Nat) (g : ReadGroup) : Pair := (u.chip c).pairs.get g

/-- Replace the pair (`c`, `g`). -/
def SchedUnit.setPair (u : SchedUnit) (c : Nat) (g : ReadGroup) (p : Pair) : SchedUnit :=
  u.setChip c { u.chip c with pairs := (u.chip c).pairs.set g p }

/-- `CFG[c] <- f`. -/
def SchedUnit.setCfg (u : SchedUnit) (c : Nat) (f : CfgFields) : SchedUnit :=
  u.setChip c { u.chip c with cfg := f }

/-! ### Encodings of the sequencing state -/

/-- The 3-bit encoding of `GRP` (10_state R27). -/
def groupBits : ReadGroup → BitVec 3
  | .cvA => 0#3
  | .cvB => 1#3
  | .cvC => 2#3
  | .cvD => 3#3
  | .auxA => 4#3
  | .auxB => 5#3

/-- The group a 3-bit `GRP` names; 6 and 7 name none (10_state R27, 60_exceptions R349). -/
def groupOfBits (b : BitVec 3) : Option ReadGroup :=
  match b.toNat with
  | 0 => some .cvA
  | 1 => some .cvB
  | 2 => some .cvC
  | 3 => some .cvD
  | 4 => some .auxA
  | 5 => some .auxB
  | _ => none

/-- The next group of the cycle, wrapping `AUX_B` to `CV_A` (43_scheduler R208). -/
def nextGroup : ReadGroup → ReadGroup
  | .cvA => .cvB
  | .cvB => .cvC
  | .cvC => .cvD
  | .cvD => .auxA
  | .auxA => .auxB
  | .auxB => .cvA

/-- The 2-bit encoding of `ACU_STATE` (10_state R29). -/
def acuStateBits : AcuState → BitVec 2
  | .startup => 0#2
  | .active => 1#2
  | .charging => 2#2
  | .faulted => 3#2

/-- The code number of a fault class (60_exceptions R342). -/
def faultCode : FaultClass → Nat
  | .ov => 0
  | .uv => 1
  | .packUv => 2
  | .cellOt => 3
  | .boardOt => 4
  | .invalidPkt => 5

/-! ### The supervisor's actions (47_acu_fsm R307 to R312; 30_encoding R122) -/

/-- `CHG_EN <- en`: the one write of U7 to U5, through `CTL.SETCHG` (10_state R21). -/
def State.setChgEn (en : Bool) (s : State) : State := { s with ctl := { s.ctl with chgEn := en } }

/-- `WD_ARMED <- armed`. -/
def State.setWdArmed (armed : Bool) (s : State) : State :=
  { s with fsm := { s.fsm with wdArmed := armed } }

/-- `LATCH_OUT <- on; Out(LATCH_EN) <- on`. -/
def State.setLatchOut (on : Bool) (s : State) : State :=
  { s with fsm := { s.fsm with latchOut := on }, ports := s.ports.emit (.latchEn on) }

/-- `FAULT_ENTRY <- now`. -/
def State.setFaultEntry (now : Nat) (s : State) : State :=
  { s with fsm := { s.fsm with faultEntry := now } }

/-- `ACU_STATE <- n`. -/
def State.setAcuState (n : AcuState) (s : State) : State :=
  { s with fsm := { s.fsm with state := n } }

/-- The effect of one action. -/
def applyAction : Action → State → State
  | .balEnable, s => s.setChgEn true
  | .balDisable, s => s.setChgEn false
  | .wdRearm, s => s.setWdArmed true
  | .wdDisable, s => s.setWdArmed false
  | .latchAssert, s => s.setLatchOut true
  | .latchDeassert, s => s.setLatchOut false
  | .recordEntry now, s => s.setFaultEntry now

/-- The effect of actions executed in order. -/
def applyActions (l : List Action) (s : State) : State := l.foldl (fun t a => applyAction a t) s

/-- `Entry(n, now)` (47_acu_fsm R307, R308, R309, R314). -/
def entryActions (now : Nat) : AcuState → List Action
  | .startup => [.wdRearm]
  | .active => []
  | .charging => [.balEnable]
  | .faulted => [.wdDisable, .latchAssert, .recordEntry now]

/-- `Exit(s)` (47_acu_fsm R310, R311, R314). -/
def exitActions : AcuState → List Action
  | .startup => []
  | .active => []
  | .charging => [.balDisable]
  | .faulted => [.latchDeassert, .wdRearm]

/-- A transition from the present state to `n`: the exit actions, the state change, the entry actions
(47_acu_fsm R301, R306). -/
def moveTo (n : AcuState) (now : Nat) (s : State) : State :=
  applyActions (entryActions now n) ((applyActions (exitActions s.fsm.state) s).setAcuState n)

/-- Taking the block's exception: entry to `FAULTED` (60_exceptions R348; 47_acu_fsm R309, R310). The
watchdog is disabled, the latch output asserted, the entry time recorded; coming from `CHARGING`,
charging is disabled first. Nothing else is saved. -/
def enterFaulted (now : Nat) (s : State) : State := moveTo .faulted now s

/-- The return from it: exit from `FAULTED`, always to `STARTUP` (60_exceptions R351; 47_acu_fsm R311).
Nothing of the state before the fault is restored. -/
def leaveFaulted (now : Nat) (s : State) : State := moveTo .startup now s

end Sys2Proof.Machine
end

