-- ==== Sys2Proof/Machine/Operands.lean ====
section
/-! DEFINITION. The operand forms: each turns an argument as the host gives it into a value of the
width the operation works on, or refuses (30_encoding R92, R119 (b); 60_exceptions R344). -/

namespace Sys2Proof.Machine

/-- A value, or a refusal for the reason `why`. -/
def orRefuse {α : Type} (why : RefusalReason) : Option α → Except RefusalReason α
  | some a => .ok a
  | none => .error why

/-- `if not cond: refuse(why)`. -/
def require (cond : Bool) (why : RefusalReason) : Except RefusalReason Unit :=
  if cond then .ok () else .error why

/-- A number below `2 ^ w` as a `w`-bit value. -/
def field (w v : Nat) : Option (BitVec w) := if v < 2 ^ w then some (BitVec.ofNat w v) else none

/-- Exactly six bytes (20_memory R64). -/
def sixBytes : List Byte → Option Six
  | [a, b, c, d, e, f] => some ⟨a, b, c, d, e, f⟩
  | _ => none

/-- A record of configuration fields, every field within its width (10_state R37). -/
def cfgFields (f : CfgArg) : Option CfgFields := do
  let gpioEnable ← field 5 f.gpioEnable
  let refon ← field 1 f.refon
  let adcopt ← field 1 f.adcopt
  let vuv ← field 12 f.vuv
  let vov ← field 12 f.vov
  let dcc ← field 12 f.dcc
  let dcto ← field 4 f.dcto
  return { gpioEnable := gpioEnable, refon := refon, adcopt := adcopt, vuv := vuv, vov := vov,
           dcc := dcc, dcto := dcto }

/-- The topology entry of chip id `c`, for `c` in `0..N_CHIPS-1`. -/
def chipConf (k : Config) (c : Nat) : Option ChipConf := k.chips[c]?

/-- Some chip uses the line (42_transport R182). -/
def usesLine (k : Config) (line : Nat) : Bool := k.chips.any (fun ch => ch.csLine == line)

/-- The chip that answers to `addr` on `line`: its id and its topology entry (entry 19). -/
def chipAt (k : Config) (line : Nat) (addr : BitVec 4) : Option (ChipConf × Nat) :=
  k.chips.zipIdx.find? (fun p => p.1.csLine == line && p.1.addr == addr)

/-- The voltage of a code in volts: 100 µV a unit (41_codec R160). -/
def volts (code : Code) : Rat := (code.toNat : Rat) / 10000

end Sys2Proof.Machine
end

