-- ==== Sys2Proof/Machine/Flags.lean ====
section
/-! DEFINITION. Every flag computation of the block: the violation tests, persistence, `HAS_FAULT`,
`BMS_OK`, the balance gate and flags (U5), the latches and their aggregate (U6), packet validity (U4). -/

namespace Sys2Proof.Machine

/-! ### U5: violation tests (44_fault_comparator R235 to R242) -/

/-- `i_dis`, positive during discharge (R235). -/
def dischargeCurrent (packCurrent : Rat) : Rat := -packCurrent

/-- A quotient; by zero it is a value the spec does not give (entry 22). -/
def quotient (a b : Rat) : Rat := if b = 0 then Config.freeQuotient a else a / b

/-- `r_cell` (R235). -/
def cellResistance (k : CtlConf) : Rat := quotient k.packIrOhm (k.irCellCount : Rat)

/-- The IR-compensated value of a cell voltage (R236, R237). -/
def compensated (k : CtlConf) (packCurrent v : Rat) : Rat :=
  v + cellResistance k * dischargeCurrent packCurrent

/-- R236. -/
def violOv (k : CtlConf) (snap : Snapshot) (cur : Rat) : Bool :=
  if k.ovThreshV ≤ snap.maxCellV then
    decide (k.ovThreshV ≤ compensated k cur snap.maxCellV)
  else false

/-- R237. -/
def violUv (k : CtlConf) (snap : Snapshot) (cur : Rat) : Bool :=
  if snap.minCellV ≤ k.uvThreshV then
    decide (compensated k cur snap.minCellV ≤ k.uvThreshV)
  else false

/-- R238. -/
def violPackUv (k : CtlConf) (snap : Snapshot) : Bool := decide (snap.packV ≤ k.minPackV)

/-- R239. -/
def violCellOt (k : CtlConf) (chgEn : Bool) (snap : Snapshot) : Bool :=
  decide ((if chgEn then k.otChargeCell else k.otRunCell) ≤ snap.maxCellTemp)

/-- R240. -/
def violBoardOt (k : CtlConf) (chgEn : Bool) (snap : Snapshot) : Bool :=
  decide ((if chgEn then k.otChargeBoard else k.otRunBoard) ≤ snap.maxBoardTemp)

/-- R241. -/
def violInvalidPkt (k : CtlConf) (snap : Snapshot) : Bool :=
  decide (k.invalidCountThresh ≤ snap.maxInvalidCount)

/-- The six tests of one tick, the five voltage and temperature classes masked when the snapshot
reports an invalid packet (R242). -/
def violations (k : CtlConf) (chgEn : Bool) (snap : Snapshot) (cur : Rat) : PerClass Bool :=
  let clean := snap.maxInvalidCount == 0
  { ov := clean && violOv k snap cur
    uv := clean && violUv k snap cur
    packUv := clean && violPackUv k snap
    cellOt := clean && violCellOt k chgEn snap
    boardOt := clean && violBoardOt k chgEn snap
    invalidPkt := violInvalidPkt k snap }

/-! ### U5: persistence (44_fault_comparator R243 to R247) -/

/-- `LAST_OK[*]` after the tick (R243). -/
def lastOkAfter (now : Nat) (viol : PerClass Bool) (old : PerClass Nat) : PerClass Nat :=
  PerClass.ofFn fun k => if viol.get k then old.get k else now

/-- `FAULT[*]` after the tick (R244), a strict comparison. -/
def faultsAfter (conf : CtlConf) (now : Nat) (lastOk : PerClass Nat) : PerClass Bool :=
  PerClass.ofFn fun k => decide (now - lastOk.get k > conf.maxDurMs.get k)

/-- `HAS_FAULT` (R245, R247). -/
def hasFaultOf (fault : PerClass Bool) (cfgOk : Bool) : Bool :=
  fault.ov || fault.uv || fault.packUv || fault.cellOt || fault.boardOt || fault.invalidPkt || !cfgOk

/-- `UpdateBmsOk(now)` (R246). -/
def updateBmsOk (conf : CtlConf) (now : Nat) (u : CtlUnit) : CtlUnit :=
  if u.hasFault then
    { u with bmsOk := false, lastNotOk := now, notOkSeen := true }
  else if u.notOkSeen && decide (now - u.lastNotOk < conf.bmsOkHoldoffMs) then
    { u with bmsOk := false }
  else
    { u with bmsOk := true }

/-! ### U5: balance (45_balance_soc R270, R271) -/

/-- `BAL_TEMP_OK` after the tick (R270). -/
def balTempAfter (conf : CtlConf) (t : Rat) (old : Bool) : Bool :=
  if old then !decide (conf.balTempLimitC < t) else decide (t < conf.balTempEnableC)

/-- `BAL[i]` for a cell of voltage `v` (R271). -/
def balFlag (conf : CtlConf) (gate : Bool) (m v : Rat) : Bool :=
  gate && decide (conf.balDiffV < v - m) && decide (conf.balFloorV < v)

/-- `UpdateBalance(snap)` (R270, R271). -/
def updateBalance (conf : CtlConf) (snap : Snapshot) (u : CtlUnit) : CtlUnit :=
  let temp := balTempAfter conf snap.maxBoardTemp u.balTempOk
  { u with balTempOk := temp,
           bal := snap.cellV.map (balFlag conf (u.chgEn && temp) snap.minCellV) }

/-! ### U6: latches (46_latch R291, R294) -/

/-- `IsFaulted()` (R294). -/
def isFaulted (u : LatchUnit) : Bool := !u.obsImdOk || !u.obsBmsOk || !u.obsShdnOk

/-- A sticky latch after one observation of its signal (R291). -/
def latchAfter (old ok : Bool) : Bool := old || !ok

/-! ### U4: packet validity (43_scheduler R206, R207) -/

/-- `UpdateValidity(c, g, ok)` on the pair (R206). -/
def updateValidity (ok : Bool) (p : Pair) : Pair :=
  { p with valid := ok, invCnt := if ok then 0 else p.invCnt + 1 }

/-- One slot of `Commit`: a slot of kind `none` is never written (R207). -/
def commitSlot (k : Kind) (old : Option Code) (code : Code) : Option Code :=
  if k = .none then old else some code

/-- `Commit(c, g, codes)` on the pair (R207). -/
def commitCodes (k : Triple Kind) (codes : Triple Code) (p : Pair) : Pair :=
  { p with sample := ⟨commitSlot k.s0 p.sample.s0 codes.s0, commitSlot k.s1 p.sample.s1 codes.s1,
                      commitSlot k.s2 p.sample.s2 codes.s2⟩ }

end Sys2Proof.Machine
end

