-- ==== Sys2Proof/Machine/Controller.lean ====
section
/-! DEFINITION. Unit U5, the accumulator controller (44_fault_comparator, 45_balance_soc): the tick and
the meanings of `CTL.INIT`, `CTL.SETCHG`, `CTL.EVALUATE`. -/

namespace Sys2Proof.Machine

/-- `SOC_SIGN` as a number. -/
def socSignum : SocSign → Rat
  | .plus => 1
  | .minus => -1

/-- `UpdateSoc(now, pack_current)`: `SOC` after `dtMs` milliseconds (45_balance_soc R273). -/
def socAfter (conf : CtlConf) (dtMs : Nat) (cur soc : Rat) : Rat :=
  clamp01 (soc + quotient (socSignum conf.socSign * (cur * ((dtMs : Rat) / 1000) / 3600)) conf.capacityAh)

/-- The fault steps of a tick: timers, fault flags, `HAS_FAULT` (44_fault_comparator R243 to R247). -/
def updateFaults (conf : CtlConf) (now : Nat) (viol : PerClass Bool) (u : CtlUnit) : CtlUnit :=
  let lastOk := lastOkAfter now viol u.lastOk
  let fault := faultsAfter conf now lastOk
  { u with lastOk := lastOk, fault := fault, hasFault := hasFaultOf fault u.cfgOk }

/-- `UpdateSoc`, then `LAST_EVAL <- now` (44_fault_comparator R234, 45_balance_soc R275). -/
def updateSoc (conf : CtlConf) (now : Nat) (cur : Rat) (u : CtlUnit) : CtlUnit :=
  { u with soc := socAfter conf (now - u.lastEval) cur u.soc, lastEval := now }

/-- One controller tick (44_fault_comparator R234, 45_balance_soc R275). -/
def evaluateTick (conf : CtlConf) (snap : Snapshot) (now : Nat) (cur : Rat) (u : CtlUnit) : CtlUnit :=
  updateSoc conf now cur <| updateBalance conf snap <| updateBmsOk conf now <|
    updateFaults conf now (violations conf u.chgEn snap cur) u

/-- `ControllerStatus` (44_fault_comparator R248, 10_state R33). Before the first not-ok tick
`LAST_NOT_OK` has no value (10_state R39): DEDUCED, the status then carries none (entry 15). That it
carries `LAST_EVAL` is entry 32. -/
def statusOf (u : CtlUnit) : ControllerStatus :=
  { hasFault := u.hasFault, bmsOk := u.bmsOk, soc := u.soc, bal := u.bal, lastOk := u.lastOk,
    lastNotOk := if u.notOkSeen then some u.lastNotOk else none, lastEval := u.lastEval }

/-- The divisors of R235 and R273 are as the parameter constraints have them (93 U17). -/
def divisorsOk (conf : CtlConf) : Bool := decide (0 < conf.irCellCount) && decide (0 < conf.capacityAh)

/-- `CTL.INIT` (44_fault_comparator R232). -/
def execCtlInit (now : Nat) (cfgOk : Bool) (s : State) : Host.Outcome State Fault Refusal :=
  conclude s do
    require (!s.ctl.ready) .alreadyInitialised
    return (.none, { s with ctl := { s.ctl with
      lastOk := PerClass.const now, lastEval := now, cfgOk := cfgOk, ready := true } })

/-- `CTL.SETCHG` (44_fault_comparator R233). -/
def execCtlSetchg (en : Bool) (s : State) : Host.Outcome State Fault Refusal :=
  conclude s (.ok (.none, s.setChgEn en))

/-- `CTL.EVALUATE` (44_fault_comparator R234). The third and fourth preconditions are the model's reading
of 93 U17, which refuses "while `cfg_ok` is passed as true", and of 92 D45 (entries 21 and 22). -/
def execCtlEvaluate (snap : Snapshot) (now : Nat) (packCurrent : Rat) (s : State) :
    Host.Outcome State Fault Refusal :=
  conclude s do
    require s.ctl.ready .notInitialised
    require (decide (s.ctl.lastEval ≤ now)) .timeWentBackwards
    require (!s.ctl.cfgOk || divisorsOk s.conf.ctl) .parameterExcluded
    require (snap.cellV.length == s.conf.nCellsTotal) .badOperand
    let u := evaluateTick s.conf.ctl snap now packCurrent s.ctl
    return (.status (statusOf u), { s with ctl := u })

end Sys2Proof.Machine
end

