-- ==== Sys2Proof/Machine/Latch.lean ====
section
/-! DEFINITION. Unit U6, the fault latch manager (46_latch): the meanings of `LATCH.UPDATE`,
`LATCH.CLEAR`, `LATCH.READ`. -/

namespace Sys2Proof.Machine

/-- `LATCH.UPDATE` (46_latch R291). -/
def execLatchUpdate (imdOk bmsOk shdnValid : Bool) (s : State) : Host.Outcome State Fault Refusal :=
  conclude s (.ok (.none, { s with latch :=
    { latchBms := latchAfter s.latch.latchBms bmsOk
      latchImd := latchAfter s.latch.latchImd imdOk
      latchShdn := latchAfter s.latch.latchShdn shdnValid
      obsBmsOk := bmsOk, obsImdOk := imdOk, obsShdnOk := shdnValid } }))

/-- The latches after `LATCH.CLEAR`: all three cleared, unless faulted (46_latch R292). -/
def clearLatches (u : LatchUnit) : LatchUnit :=
  if isFaulted u then u
  else { u with latchBms := false, latchImd := false, latchShdn := false }

/-- `LATCH.CLEAR` (46_latch R292). -/
def execLatchClear (s : State) : Host.Outcome State Fault Refusal :=
  conclude s (.ok (.cleared (!isFaulted s.latch), { s with latch := clearLatches s.latch }))

/-- `LATCH.READ` (46_latch R293). -/
def execLatchRead (s : State) : Host.Outcome State Fault Refusal :=
  conclude s (.ok (.latches s.latch.latchBms s.latch.latchImd s.latch.latchShdn
    (isFaulted s.latch), s))

end Sys2Proof.Machine
end

