-- ==== Sys2Proof/Machine/Supervisor.lean ====
section
/-! DEFINITION. Unit U7, the supervisory state machine and its watchdog output (47_acu_fsm): the
next-state function, the self-loop, and the meanings of `FSM.ADVANCE` and `WD.KICK`. -/

namespace Sys2Proof.Machine

/-- `Next(s, shdn_valid, charge_req, fault)` (47_acu_fsm R302 to R306). -/
def nextAcuState (st : AcuState) (shdnValid chargeReq fault : Bool) : AcuState :=
  match st with
  | .startup => if shdnValid then .active else .startup
  | .active => if chargeReq then .charging else if fault then .faulted else .active
  | .charging =>
    if fault then .faulted
    else if !chargeReq then .active
    else if !shdnValid then .startup
    else .charging
  | .faulted => if shdnValid && !fault then .startup else .faulted

/-- `SelfLoop(now, bms_fault)`: the actions of a tick that stays in `FAULTED` (47_acu_fsm R312). -/
def selfLoopActions (now : Nat) (bmsFault : Bool) (u : FsmUnit) : List Action :=
  if decide (now - u.faultEntry > tFaultedNudgeMs) && !bmsFault then [.wdRearm] else []

/-- The actions a tick executes, in order (47_acu_fsm R301, R316). -/
def tickActions (n : AcuState) (now : Nat) (bmsFault : Bool) (u : FsmUnit) : List Action :=
  if n = u.state then (if u.state = .faulted then selfLoopActions now bmsFault u else [])
  else exitActions u.state ++ entryActions now n

/-- The state after a tick whose next state is `n` (47_acu_fsm R301). -/
def tickState (n : AcuState) (now : Nat) (bmsFault : Bool) (s : State) : State :=
  if n = s.fsm.state then applyActions (tickActions n now bmsFault s.fsm) s
  else if n = .faulted then enterFaulted now s
  else if s.fsm.state = .faulted then leaveFaulted now s
  else moveTo n now s

/-- `FSM.ADVANCE` (47_acu_fsm R301). -/
def execFsmAdvance (now : Nat) (shdnValid chargeReq bmsFault imdFault : Bool) (s : State) :
    Host.Outcome State Fault Refusal :=
  conclude s do
    require (!(s.fsm.state == .faulted && decide (now < s.fsm.faultEntry))) .timeWentBackwards
    let n := nextAcuState s.fsm.state shdnValid chargeReq (bmsFault || imdFault)
    return (.advanced n (tickActions n now bmsFault s.fsm), tickState n now bmsFault s)

/-- The toggle of a watchdog kick while armed (47_acu_fsm R315). -/
def kickWatchdog (s : State) : State :=
  if s.fsm.wdArmed then
    { s with fsm := { s.fsm with wdOut := !s.fsm.wdOut },
             ports := s.ports.emit (.wdKick (!s.fsm.wdOut)) }
  else s

/-- `WD.KICK` (47_acu_fsm R315). -/
def execWdKick (s : State) : Host.Outcome State Fault Refusal :=
  conclude s (.ok (.none, kickWatchdog s))

end Sys2Proof.Machine
end

