-- ==== Sys2Proof/Machine/Codec.lean ====
section
/-! DEFINITION. Unit U2, the command and register codec (41_codec): pure functions, and the meanings of
the eight `CODEC` operations. -/

namespace Sys2Proof.Machine

/-- `CODEC.CMD(addr, cc)`: byte 0 is `1 ++ addr ++ cc[10:8]`, byte 1 is `cc[7:0]` (41_codec R151,
30_encoding R91). -/
def cmdFrame (addr : BitVec 4) (cc : BitVec 11) : List Byte :=
  [(0x80#8 ||| (addr.setWidth 8 <<< 3)) ||| (cc >>> 8).setWidth 8, cc.setWidth 8]

/-- The fields of a record, each as the positions the layout gives it and its bits. -/
def placedFields (l : CfgLayout) (f : CfgFields) : List (List Nat × (Nat → Bool)) :=
  [(l.gpioEnable, f.gpioEnable.getLsbD), (l.refon, f.refon.getLsbD), (l.adcopt, f.adcopt.getLsbD),
    (l.vuv, f.vuv.getLsbD), (l.vov, f.vov.getLsbD), (l.dcc, f.dcc.getLsbD), (l.dcto, f.dcto.getLsbD)]

/-- The bit a field puts at position `p`; false where it puts none. -/
def placedBit (pos : List Nat) (bit : Nat → Bool) (p : Nat) : Bool :=
  pos.zipIdx.any fun x => x.1 == p && bit x.2

/-- The bit of the configuration image at position `p`; a position no field uses is 0 (30_encoding R99). -/
def imageBit (l : CfgLayout) (f : CfgFields) (p : Nat) : Bool :=
  (placedFields l f).any fun x => placedBit x.1 x.2 p

/-- The byte with bit `b` as `bits b` says. -/
def byteOfBits (bits : Nat → Bool) : Byte :=
  BitVec.ofBool (bits 7) ++ BitVec.ofBool (bits 6) ++ BitVec.ofBool (bits 5) ++
    BitVec.ofBool (bits 4) ++ BitVec.ofBool (bits 3) ++ BitVec.ofBool (bits 2) ++
    BitVec.ofBool (bits 1) ++ BitVec.ofBool (bits 0)

/-- `CODEC.CFGPACK(f)` in the layout `l` (41_codec R152, 30_encoding R98). -/
def cfgPack (l : CfgLayout) (f : CfgFields) : Six :=
  let byte := fun j => byteOfBits fun b => imageBit l f (8 * j + b)
  ⟨byte 0, byte 1, byte 2, byte 3, byte 4, byte 5⟩

/-- The bit at position `p` of six bytes. -/
def sixBit (d : Six) (p : Nat) : Bool := (d.toList.getD (p / 8) 0#8).getLsbD (p % 8)

/-- The number whose bit `i` is the bit of `d` at the `i`-th position of `pos`. -/
def gather (d : Six) (pos : List Nat) : Nat := pos.foldr (fun p acc => 2 * acc + (sixBit d p).toNat) 0

/-- `CODEC.CFGUNPACK(d)` in the layout `l` (41_codec R153, 30_encoding R98). -/
def cfgUnpack (l : CfgLayout) (d : Six) : CfgFields :=
  { gpioEnable := .ofNat 5 (gather d l.gpioEnable)
    refon := .ofNat 1 (gather d l.refon)
    adcopt := .ofNat 1 (gather d l.adcopt)
    vuv := .ofNat 12 (gather d l.vuv)
    vov := .ofNat 12 (gather d l.vov)
    dcc := .ofNat 12 (gather d l.dcc)
    dcto := .ofNat 4 (gather d l.dcto) }

/-- `CODEC.GRPUNPACK(d)`: three little-endian codes (41_codec R154). -/
def groupCodes (d : Six) : Triple Code := ⟨d.d1 ++ d.d0, d.d3 ++ d.d2, d.d5 ++ d.d4⟩

/-- The comparison voltage of `vuv` in code units (41_codec R155). -/
def uvCompareCode (vuv : BitVec 12) : Nat := (vuv.toNat + 1) * 16

/-- The comparison voltage of `vov` in code units (41_codec R155). -/
def ovCompareCode (vov : BitVec 12) : Nat := vov.toNat * 16

/-- The code's fraction of 5 V (41_codec R156). -/
def codeFraction (code : Code) : Rat := (code.toNat : Rat) / 50000

/-- Board temperature in °C, exact (41_codec R156). -/
def boardTemp (code : Code) : Rat := -(66875 / 1000) + (21875 / 100) * codeFraction code

/-- Humidity in percent, exact and not clamped (41_codec R157). -/
def humidity (code : Code) : Rat := -(125 / 10) + 125 * codeFraction code

/-- The thermistor's resistance (41_codec R158). -/
def thermistorOhm (code : Code) : Rat := 2740 / codeFraction code - 2740

/-- `LN(q)`: the value the configuration lists, or an unknown one (00_scope R8, R12; entry 13). -/
def lnOf (k : Config) (q : Rat) : Rat := (k.ln.lookup q).getD (Config.freeLn q)

/-- The reciprocal absolute temperature (41_codec R158). -/
def inverseKelvin (k : Config) (code : Code) : Rat :=
  100 / 29815 + 1 / 3984 * lnOf k (thermistorOhm code / 10000)

/-- Thermistor temperature in °C; `open_` is the value where the spec gives none (41_codec R158, R159).
DESIGN CHOICE: it is a rational, as `LN` is (entry 13). -/
def thermistorTemp (k : Config) (open_ : Rat) (code : Code) : Rat :=
  if code = 0#16 ∨ 50000 ≤ code.toNat then open_
  else if inverseKelvin k code = 0 then open_
  else 1 / inverseKelvin k code - 27315 / 100

/-- The conversion that `KIND` gives a slot's code; a slot of kind `none` has none (41_codec R161).
`open_` as in `thermistorTemp`. -/
def convertCode (k : Config) (kind : Kind) (open_ : Rat) (code : Code) : Option Rat :=
  match kind with
  | .voltage => some (volts code)
  | .temperature => some (thermistorTemp k open_ code)
  | .boardTemperature => some (boardTemp code)
  | .humidity => some (humidity code)
  | .none => none

/-- `CODEC.CMD` (41_codec R151). -/
def execCodecCmd (addr cc : Nat) (s : State) : Host.Outcome State Fault Refusal :=
  conclude s do
    let a ← orRefuse .fieldOutOfRange (field 4 addr)
    let code ← orRefuse .fieldOutOfRange (field 11 cc)
    return (.bytes (cmdFrame a code), s)

/-- `CODEC.CFGPACK` (41_codec R152). -/
def execCodecCfgpack (f : CfgArg) (s : State) : Host.Outcome State Fault Refusal :=
  conclude s do
    let fields ← orRefuse .fieldOutOfRange (cfgFields f)
    return (.bytes (cfgPack s.conf.layout fields).toList, s)

/-- `CODEC.CFGUNPACK` (41_codec R153). -/
def execCodecCfgunpack (data : List Byte) (s : State) : Host.Outcome State Fault Refusal :=
  conclude s do
    let d ← orRefuse .badOperand (sixBytes data)
    return (.fields (cfgUnpack s.conf.layout d), s)

/-- `CODEC.GRPUNPACK` (41_codec R154). -/
def execCodecGrpunpack (data : List Byte) (s : State) : Host.Outcome State Fault Refusal :=
  conclude s do
    let d ← orRefuse .badOperand (sixBytes data)
    return (.codes (groupCodes d), s)

/-- `CODEC.CMPV` (41_codec R155). -/
def execCodecCmpv (vuv vov : Nat) (s : State) : Host.Outcome State Fault Refusal :=
  conclude s do
    let u ← orRefuse .badOperand (field 12 vuv)
    let o ← orRefuse .badOperand (field 12 vov)
    return (.comparison (uvCompareCode u) (ovCompareCode o), s)

/-- `CODEC.BTEMP` (41_codec R156). -/
def execCodecBtemp (code : Code) (s : State) : Host.Outcome State Fault Refusal :=
  conclude s (.ok (.quantity (boardTemp code), s))

/-- `CODEC.HUMID` (41_codec R157). -/
def execCodecHumid (code : Code) (s : State) : Host.Outcome State Fault Refusal :=
  conclude s (.ok (.quantity (humidity code), s))

/-- `CODEC.THERM` (41_codec R158, R159). The draw is used up whether or not it is needed (entry 13). -/
def execCodecTherm (code : Code) (s : State) : Host.Outcome State Fault Refusal :=
  conclude s (.ok (.quantity (thermistorTemp s.conf (Config.freeTherm s.draws) code),
    { s with draws := s.draws + 1 }))

end Sys2Proof.Machine
end

