-- ==== Sys2Proof/Machine/Pec.lean ====
section
/-! DEFINITION. Unit U1, the CRC15/PEC engine (40_pec): the table, the computation, the check, and the
meanings of `PEC.BUILD`, `PEC.COMPUTE`, `PEC.CHECK`. -/

namespace Sys2Proof.Machine

/-- One of the eight steps of a table entry (40_pec R131). -/
def pecShift (r : Code) : Code := if r &&& 0x4000#16 ≠ 0#16 then (r <<< 1) ^^^ poly else r <<< 1

/-- `n` steps. -/
def pecShifts : Nat → Code → Code
  | 0, r => r
  | n + 1, r => pecShifts n (pecShift r)

/-- `TABLE[b]` as `PEC.BUILD` computes it (40_pec R131). -/
def tableEntry (b : Nat) : Code := pecShifts 8 (BitVec.ofNat 16 b <<< 7)

/-- The 256 entries `PEC.BUILD` writes. -/
def pecTable : Vector Code 256 := Vector.ofFn fun i => tableEntry i.val

/-- The table index of a step: `((REM >> 7) ^ d) & 0xFF` (40_pec R132). -/
def pecIndex (rem : Code) (d : Byte) : Byte := rem.extractLsb' 7 8 ^^^ d

/-- `REM` after one byte (40_pec R132). -/
def pecStep (table : Vector Code 256) (rem : Code) (d : Byte) : Code :=
  (rem <<< 8) ^^^ table[(pecIndex rem d).toNat]'((pecIndex rem d).isLt)

/-- The final `REM`: all bytes, then the doubling (40_pec R132). -/
def pecValue (table : Vector Code 256) (data : List Byte) : Code :=
  data.foldl (pecStep table) pecSeed <<< 1

/-- `PEC.COMPUTE(data)`, big-endian (40_pec R132, 30_encoding R93). -/
def pecBytes (table : Vector Code 256) (data : List Byte) : List Byte :=
  [(pecValue table data).extractLsb' 8 8, (pecValue table data).extractLsb' 0 8]

/-- `PEC.CHECK(data, [rx0, rx1])`: both bytes must match (40_pec R133). -/
def pecMatches (table : Vector Code 256) (data : List Byte) (rx0 rx1 : Byte) : Bool :=
  pecBytes table data == [rx0, rx1]

/-- `PEC.APPEND(d)` (30_encoding R122). -/
def pecAppend (table : Vector Code 256) (d : List Byte) : List Byte := d ++ pecBytes table d

/-- `if not TABLE_VALID: refuse(table_not_built)` (40_pec R132). -/
def requireTable (s : State) : Except RefusalReason Unit :=
  require s.pec.tableValid .tableNotBuilt

/-- `PEC.BUILD` (40_pec R131). -/
def execPecBuild (s : State) : Host.Outcome State Fault Refusal :=
  conclude s (.ok (.none, { s with pec := { table := pecTable, tableValid := true } }))

/-- `PEC.COMPUTE` (40_pec R132). -/
def execPecCompute (data : List Byte) (s : State) : Host.Outcome State Fault Refusal :=
  conclude s do
    requireTable s
    return (.bytes (pecBytes s.pec.table data), s)

/-- `PEC.CHECK` (40_pec R133). -/
def execPecCheck (data : List Byte) (rx0 rx1 : Byte) (s : State) :
    Host.Outcome State Fault Refusal :=
  conclude s do
    requireTable s
    return (.verdict (pecMatches s.pec.table data rx0 rx1), s)

end Sys2Proof.Machine
end

