-- ==== Sys2Proof/Machine/Transport.lean ====
section
/-! DEFINITION. Unit U3, the SPI transport (42_transport): the bus transactions as functions of the
ports, and the meanings of `SPI.WAKEUP`, `SPI.WRREG`, `SPI.RDREG`, `SPI.ADCSTART`. -/

namespace Sys2Proof.Machine

/-- `F-CMD4`: the command frame and its PEC (30_encoding R94, 42_transport R181). -/
def cmd4 (table : Vector Code 256) (addr : BitVec 4) (cc : BitVec 11) : List Byte :=
  pecAppend table (cmdFrame addr cc)

/-- One chip-select-low window on `line` in which `txs` are sent: the bytes received, and the ports
after (20_memory R67). -/
def busWindow (line : Nat) (txs : List Byte) (p : Ports) : List Byte × Ports :=
  let q := (p.csDriveLow line).xferAll txs
  (q.1, q.2.csDriveHigh line)

/-- The port activity of `SPI.WAKEUP(L)` (42_transport R182). -/
def wakeLine (txFill : Byte) (line : Nat) (p : Ports) : Ports :=
  (((((p.csDriveLow line).waitUs tCsUs).xfer txFill).2).csDriveHigh line).waitUs tWakeUs

/-- The port activity of a register write to chip `ch` (42_transport R183, 30_encoding R95). -/
def writeGroup (table : Vector Code 256) (ch : ChipConf) (cc : BitVec 11) (d : Six) (p : Ports) :
    Ports :=
  (busWindow ch.csLine (cmd4 table ch.addr cc ++ pecAppend table d.toList) p).2

/-- The verdict on the eight bytes of a read: the six data bytes and whether the PEC matches
(42_transport R184). -/
def checkGroup (table : Vector Code 256) : List Byte → List Byte × Bool
  | [r0, r1, r2, r3, r4, r5, r6, r7] =>
    ([r0, r1, r2, r3, r4, r5], pecMatches table [r0, r1, r2, r3, r4, r5] r6 r7)
  | l => (l, false)

/-- The bytes a register read sends: `F-CMD4`, then `TX_FILL` eight times (30_encoding R96). -/
def readFrame (table : Vector Code 256) (txFill : Byte) (ch : ChipConf) (cc : BitVec 11) :
    List Byte :=
  cmd4 table ch.addr cc ++ List.replicate 8 txFill

/-- A register read of chip `ch`: data, verdict, and the ports after (42_transport R184). The bytes
received during `F-CMD4` are discarded. -/
def readGroup (table : Vector Code 256) (txFill : Byte) (ch : ChipConf) (cc : BitVec 11)
    (p : Ports) : (List Byte × Bool) × Ports :=
  let q := busWindow ch.csLine (readFrame table txFill ch cc) p
  (checkGroup table (q.1.drop 4), q.2)

/-- `SPI.ADCSTART` on chip `c` with topology entry `ch`: the frame, then
`ADC_READY_AT[c] <- NowUs() + ADC_DELAY_US[mode]` (42_transport R185). -/
def startAdc (c : Nat) (ch : ChipConf) (kind : AdcKind) (mode : BitVec 2) (s : State) : State :=
  let q := busWindow ch.csLine (cmd4 s.pec.table ch.addr (s.conf.codes.adc kind mode)) s.ports
  let now := q.2.nowUs
  { s with ports := now.2, adcReadyAt := s.adcReadyAt.set c (now.1 + adcDelayUs mode) }

/-- `SPI.WAKEUP` (42_transport R182). -/
def execSpiWakeup (line : Nat) (s : State) : Host.Outcome State Fault Refusal :=
  conclude s do
    require (usesLine s.conf line) .badLine
    return (.none, { s with ports := wakeLine s.conf.txFill line s.ports })

/-- `SPI.WRREG` (42_transport R183). -/
def execSpiWrreg (c cc : Nat) (data : List Byte) (s : State) : Host.Outcome State Fault Refusal :=
  conclude s do
    requireTable s
    let ch ← orRefuse .badOperand (chipConf s.conf c)
    let code ← orRefuse .badOperand (field 11 cc)
    let d ← orRefuse .badOperand (sixBytes data)
    return (.none, { s with ports := writeGroup s.pec.table ch code d s.ports })

/-- `SPI.RDREG` (42_transport R184). -/
def execSpiRdreg (c cc : Nat) (s : State) : Host.Outcome State Fault Refusal :=
  conclude s do
    requireTable s
    let ch ← orRefuse .badOperand (chipConf s.conf c)
    let code ← orRefuse .badOperand (field 11 cc)
    let q := readGroup s.pec.table s.conf.txFill ch code s.ports
    return (.group q.1.1 q.1.2, { s with ports := q.2 })

/-- `SPI.ADCSTART` (42_transport R185). -/
def execSpiAdcstart (c : Nat) (kind : AdcKind) (mode : Nat) (s : State) :
    Host.Outcome State Fault Refusal :=
  conclude s do
    requireTable s
    let ch ← orRefuse .badOperand (chipConf s.conf c)
    let m ← orRefuse .badOperand (field 2 mode)
    return (.none, startAdc c ch kind m s)

end Sys2Proof.Machine
end

