-- ==== Sys2Proof/Machine/Scheduler.lean ====
section
/-! DEFINITION. Unit U4, the multi-chip read-group scheduler (43_scheduler): the pre-step, the read of
one chip, the advance, and the meanings of `SCHED.SETCFG`, `SCHED.NEXT`, `SCHED.FAULTDATA`. -/

namespace Sys2Proof.Machine

/-- Insert a line into an ascending list without repeats. -/
def insertLine (line : Nat) : List Nat → List Nat
  | [] => [line]
  | l :: rest =>
    if line < l then line :: l :: rest
    else if line = l then l :: rest
    else l :: insertLine line rest

/-- The chip-select lines some chip uses, ascending, each once (43_scheduler R203). -/
def usedLines (k : Config) : List Nat := k.chips.foldr (fun ch acc => insertLine ch.csLine acc) []

/-- The chips with their ids, ascending. -/
def numberedChips (k : Config) : List (ChipConf × Nat) := k.chips.zipIdx

/-- The configuration write of chip `c`, wire command `WRCFG` (43_scheduler R203). -/
def writeConfig (k : Config) (table : Vector Code 256) (u : SchedUnit) (ch : ChipConf) (c : Nat)
    (p : Ports) : Ports :=
  writeGroup table ch k.codes.wrcfg (cfgPack k.layout (u.chip c).cfg) p

/-- `PreStep()`: wake every used line, then write every chip's configuration (43_scheduler R203,
90_conflicts C7). -/
def preStep (k : Config) (table : Vector Code 256) (u : SchedUnit) (p : Ports) : Ports :=
  (numberedChips k).foldl (fun q x => writeConfig k table u x.1 x.2 q)
    ((usedLines k).foldl (fun q line => wakeLine k.txFill line q) p)

/-- All three slots of the group are of kind `none` (43_scheduler R205). -/
def skipsGroup (ch : ChipConf) (g : ReadGroup) : Bool :=
  (ch.kind.get g).s0 == .none && (ch.kind.get g).s1 == .none && (ch.kind.get g).s2 == .none

/-- The three codes of the bytes received; a read always receives six data bytes. -/
def reportCodes (data : List Byte) : Option (Triple Code) := (sixBytes data).map groupCodes

/-- The pair after a packet with data bytes `data` and PEC verdict `ok` (43_scheduler R204, R206,
R207). -/
def pairAfter (kinds : Triple Kind) (data : List Byte) (ok : Bool) (p : Pair) : Pair :=
  match ok, reportCodes data with
  | true, some codes => commitCodes kinds codes (updateValidity true p)
  | _, _ => updateValidity ok p

/-- The read of group `g` from chip `ch`: the transaction, the data bytes and the verdict, and the ports
after (43_scheduler R204). -/
def groupRead (k : Config) (table : Vector Code 256) (g : ReadGroup) (ch : ChipConf) (p : Ports) :
    (List Byte × Bool) × Ports :=
  readGroup table k.txFill ch (k.codes.rd.get g) p

/-- The report of a read: the codes received, whether or not the PEC matched, and the verdict
(43_scheduler R204). -/
def reportOf (r : List Byte × Bool) : ChipReport :=
  ⟨reportCodes r.1, if r.2 then .valid else .invalid⟩

/-- `ReadChip(c, g)` (43_scheduler R204, R205). -/
def readChip (k : Config) (table : Vector Code 256) (g : ReadGroup) (ch : ChipConf) (c : Nat)
    (u : SchedUnit) (p : Ports) : ChipReport × SchedUnit × Ports :=
  if skipsGroup ch g then (⟨none, .skipped⟩, u, p)
  else
    let q := groupRead k table g ch p
    (reportOf q.1, u.setPair c g (pairAfter (ch.kind.get g) q.1.1 q.1.2 (u.pair c g)), q.2)

/-- `ReadChip` of each chip in order: the reports, the unit and the ports after (43_scheduler R202). -/
def readChips (k : Config) (table : Vector Code 256) (g : ReadGroup) :
    List (ChipConf × Nat) → SchedUnit → Ports → List ChipReport × SchedUnit × Ports
  | [], u, p => ([], u, p)
  | x :: rest, u, p =>
    let r := readChip k table g x.1 x.2 u p
    let q := readChips k table g rest r.2.1 r.2.2
    (r.1 :: q.1, q.2)

/-- `Advance(g)` (43_scheduler R208). -/
def advance (g : ReadGroup) (u : SchedUnit) : SchedUnit :=
  { u with grp := groupBits (nextGroup g), cycle := if g = .auxB then u.cycle + 1 else u.cycle }

/-- The groups before which the pre-step runs (43_scheduler R202). -/
def needsPreStep (g : ReadGroup) : Bool := g == .cvA || g == .auxA

/-- The body of `SCHED.NEXT` for the current group `g` (43_scheduler R202). -/
def schedRound (g : ReadGroup) (s : State) : Result × State :=
  let p := if needsPreStep g then preStep s.conf s.pec.table s.sched s.ports else s.ports
  let q := readChips s.conf s.pec.table g (numberedChips s.conf) s.sched p
  (.scheduled g q.1, { s with sched := advance g q.2.1, ports := q.2.2 })

/-- `SCHED.NEXT` with `GRP` outside the six groups: no bus traffic, restart at `CV_A` (60_exceptions
R349). -/
def schedRestart (s : State) : Result × State :=
  (.restarted, { s with sched := { s.sched with grp := groupBits .cvA } })

/-- The largest of a list of naturals, 0 for the empty list. -/
def maxOf (l : List Nat) : Nat := l.foldr max 0

/-- `max_chip[c]` (43_scheduler R210). -/
def maxChip (u : SchedUnit) (c : Nat) : Nat :=
  maxOf (ReadGroup.all.map fun g => (u.pair c g).invCnt)

/-- `SCHED.SETCFG` (43_scheduler R201). -/
def execSchedSetcfg (c : Nat) (f : CfgArg) (s : State) : Host.Outcome State Fault Refusal :=
  conclude s do
    let _ ← orRefuse .badOperand (chipConf s.conf c)
    let fields ← orRefuse .badOperand (cfgFields f)
    return (.none, { s with sched := s.sched.setCfg c fields })

/-- `SCHED.NEXT` (43_scheduler R202). -/
def execSchedNext (s : State) : Host.Outcome State Fault Refusal :=
  conclude s do
    requireTable s
    match groupOfBits s.sched.grp with
    | some g => return schedRound g s
    | none => return schedRestart s

/-- `SCHED.FAULTDATA` (43_scheduler R210). -/
def execSchedFaultdata (s : State) : Host.Outcome State Fault Refusal :=
  let perChip := (List.range s.conf.nChips).map (maxChip s.sched)
  conclude s (.ok (.faultData (maxOf perChip) perChip s.sched.cycle, s))

end Sys2Proof.Machine
end

