-- ==== Sys2Proof/Machine/Wire.lean ====
section
/-! DEFINITION. The wire commands (30_encoding R106) as instructions: each is the transaction its rule
gives it on the one chip that the chip-select line and the address select (entry 19). -/

namespace Sys2Proof.Machine

/-- What a read command of group `g` does on chip `ch`: the report and the ports after. It is the read of
43_scheduler R204 without `UpdateValidity` and `Commit`: their registers are written only by `SCHED.NEXT`
(10_state R25, R31). -/
def readReport (k : Config) (table : Vector Code 256) (g : ReadGroup) (ch : ChipConf) (p : Ports) :
    ChipReport × Ports :=
  if skipsGroup ch g then (⟨none, .skipped⟩, p)
  else
    let q := groupRead k table g ch p
    (reportOf q.1, q.2)

/-- The transaction of a read command for group `g` on the chip selected (43_scheduler R204). -/
def readCommand (g : ReadGroup) (line : Nat) (addr : BitVec 4) (s : State) : Answer := do
  requireTable s
  let x ← orRefuse .badOperand (chipAt s.conf line addr)
  let r := readReport s.conf s.pec.table g x.1 s.ports
  return (.packet r.1, { s with ports := r.2 })

/-- `WRCFG`: the configuration image of the chip is written to it (43_scheduler R203). -/
def execWrcfg (line : Nat) (addr : BitVec 4) (s : State) : Host.Outcome State Fault Refusal :=
  conclude s do
    requireTable s
    let x ← orRefuse .badOperand (chipAt s.conf line addr)
    return (.none, { s with ports := writeConfig s.conf s.pec.table s.sched x.1 x.2 s.ports })

/-- `RDCVA` (43_scheduler R204). -/
def execRdcva (line : Nat) (addr : BitVec 4) (s : State) : Host.Outcome State Fault Refusal :=
  conclude s (readCommand .cvA line addr s)

/-- `RDCVB` (43_scheduler R204). -/
def execRdcvb (line : Nat) (addr : BitVec 4) (s : State) : Host.Outcome State Fault Refusal :=
  conclude s (readCommand .cvB line addr s)

/-- `RDCVC` (43_scheduler R204). -/
def execRdcvc (line : Nat) (addr : BitVec 4) (s : State) : Host.Outcome State Fault Refusal :=
  conclude s (readCommand .cvC line addr s)

/-- `RDCVD` (43_scheduler R204). -/
def execRdcvd (line : Nat) (addr : BitVec 4) (s : State) : Host.Outcome State Fault Refusal :=
  conclude s (readCommand .cvD line addr s)

/-- `RDAUXA` (43_scheduler R204). -/
def execRdauxa (line : Nat) (addr : BitVec 4) (s : State) : Host.Outcome State Fault Refusal :=
  conclude s (readCommand .auxA line addr s)

/-- `RDAUXB` (43_scheduler R204). -/
def execRdauxb (line : Nat) (addr : BitVec 4) (s : State) : Host.Outcome State Fault Refusal :=
  conclude s (readCommand .auxB line addr s)

/-- `ADC(kind, mode)` (42_transport R185). -/
def execAdc (line : Nat) (addr : BitVec 4) (kind : AdcKind) (mode : BitVec 2) (s : State) :
    Host.Outcome State Fault Refusal :=
  conclude s do
    requireTable s
    let x ← orRefuse .badOperand (chipAt s.conf line addr)
    return (.none, startAdc x.2 x.1 kind mode s)

end Sys2Proof.Machine
end

