-- ==== Sys2Proof/Machine/Dispatch.lean ====
section
/-! DEFINITION. exec: one arm per instruction, each one call of its meaning. -/

namespace Sys2Proof.Machine

def exec (i : Instr) (s : State) : Host.Outcome State Fault Refusal :=
  match i with
  | .pecBuild => Sys2Proof.Machine.execPecBuild s
  | .pecCompute data => Sys2Proof.Machine.execPecCompute data s
  | .pecCheck data rx0 rx1 => Sys2Proof.Machine.execPecCheck data rx0 rx1 s
  | .codecCmd addr cc => Sys2Proof.Machine.execCodecCmd addr cc s
  | .codecCfgpack f => Sys2Proof.Machine.execCodecCfgpack f s
  | .codecCfgunpack data => Sys2Proof.Machine.execCodecCfgunpack data s
  | .codecGrpunpack data => Sys2Proof.Machine.execCodecGrpunpack data s
  | .codecCmpv vuv vov => Sys2Proof.Machine.execCodecCmpv vuv vov s
  | .codecBtemp code => Sys2Proof.Machine.execCodecBtemp code s
  | .codecHumid code => Sys2Proof.Machine.execCodecHumid code s
  | .codecTherm code => Sys2Proof.Machine.execCodecTherm code s
  | .spiWakeup line => Sys2Proof.Machine.execSpiWakeup line s
  | .spiWrreg c cc data => Sys2Proof.Machine.execSpiWrreg c cc data s
  | .spiRdreg c cc => Sys2Proof.Machine.execSpiRdreg c cc s
  | .spiAdcstart c kind mode => Sys2Proof.Machine.execSpiAdcstart c kind mode s
  | .schedSetcfg c f => Sys2Proof.Machine.execSchedSetcfg c f s
  | .schedNext => Sys2Proof.Machine.execSchedNext s
  | .schedFaultdata => Sys2Proof.Machine.execSchedFaultdata s
  | .ctlInit now cfgOk => Sys2Proof.Machine.execCtlInit now cfgOk s
  | .ctlSetchg en => Sys2Proof.Machine.execCtlSetchg en s
  | .ctlEvaluate snap now packCurrent => Sys2Proof.Machine.execCtlEvaluate snap now packCurrent s
  | .latchUpdate imdOk bmsOk shdnValid => Sys2Proof.Machine.execLatchUpdate imdOk bmsOk shdnValid s
  | .latchClear => Sys2Proof.Machine.execLatchClear s
  | .latchRead => Sys2Proof.Machine.execLatchRead s
  | .fsmAdvance now shdn chg bms imd => Sys2Proof.Machine.execFsmAdvance now shdn chg bms imd s
  | .wdKick => Sys2Proof.Machine.execWdKick s
  | .wrcfg line addr => Sys2Proof.Machine.execWrcfg line addr s
  | .rdcva line addr => Sys2Proof.Machine.execRdcva line addr s
  | .rdcvb line addr => Sys2Proof.Machine.execRdcvb line addr s
  | .rdcvc line addr => Sys2Proof.Machine.execRdcvc line addr s
  | .rdcvd line addr => Sys2Proof.Machine.execRdcvd line addr s
  | .rdauxa line addr => Sys2Proof.Machine.execRdauxa line addr s
  | .rdauxb line addr => Sys2Proof.Machine.execRdauxb line addr s
  | .adc line addr kind mode => Sys2Proof.Machine.execAdc line addr kind mode s

end Sys2Proof.Machine
end

