-- ==== Sys2Proof/Machine/Fetch.lean ====
section
/-! DEFINITION. Fetch: the host's next request, the redraw of the undriven port, and a request that
names no instruction. -/

namespace Sys2Proof.Machine

/-- Port `OK_OUT` takes any value (60_exceptions R372, entry 12). -/
def redrawOkOut (s : State) : State :=
  { s with okOut := Config.freeOkOut s.draws, draws := s.draws + 1 }

/-- The state in which the requests after the first are pending and the first is being run. -/
def fetched (rest : List Request) (s : State) : State := redrawOkOut { s with reqs := rest }

/-- A request that names no operation is refused (30_encoding R119, 60_exceptions R344). -/
def refuseRequest (why : DecodeReject) (s : State) : Host.Outcome State Fault Refusal :=
  conclude s (.error (.unknownRequest why))

/-- The request that the opcode-table bits `w` stand for, put in front of the pending ones. -/
def pushWord (s : State) (nbits w : Nat) : State :=
  { s with reqs := (requestOfWord nbits w).toList ++ s.reqs }

end Sys2Proof.Machine
end

