-- ==== Sys2Proof/Machine/Step.lean ====
section
/-! DEFINITION. One step: the host's next request is decoded and run. With no request pending the block
executes nothing (70_reset R383); only the undriven port may change. -/

namespace Sys2Proof.Machine

/-- One step of the block. -/
def step (s : State) : Host.Outcome State Fault Refusal :=
  match s.reqs with
  | [] => .next (redrawOkOut s)
  | r :: rest =>
    match decode s.conf.codes r with
    | .ok i => exec i (fetched rest s)
    | .error why => refuseRequest why (fetched rest s)

/-- `s` with the request of the opcode-table bits `w` as its next one (entry 1). -/
def State.withFetchWord (s : State) (nbits w : Nat) : State := pushWord s nbits w

end Sys2Proof.Machine
end

