-- ==== Sys2Proof/Laws/State.lean ====
section
/-! SUPPORT. One lemma per field per named update of the state, the ports and the scheduler's store, so
that no proof unfolds a record update. -/

namespace Sys2Proof.Machine

@[simp] theorem State_refuse_conf (why : RefusalReason) (s : State) :
    (refuse why s).conf = s.conf := rfl
@[simp] theorem State_refuse_reqs (why : RefusalReason) (s : State) :
    (refuse why s).reqs = s.reqs := rfl
@[simp] theorem State_refuse_outcomes (why : RefusalReason) (s : State) :
    (refuse why s).outcomes = s.outcomes ++ [.refused why] := rfl
@[simp] theorem State_refuse_refusalMark (why : RefusalReason) (s : State) :
    (refuse why s).refusalMark = true := rfl
@[simp] theorem State_refuse_draws (why : RefusalReason) (s : State) :
    (refuse why s).draws = s.draws := rfl
@[simp] theorem State_refuse_okOut (why : RefusalReason) (s : State) :
    (refuse why s).okOut = s.okOut := rfl
@[simp] theorem State_refuse_ports (why : RefusalReason) (s : State) :
    (refuse why s).ports = s.ports := rfl
@[simp] theorem State_refuse_pec (why : RefusalReason) (s : State) :
    (refuse why s).pec = s.pec := rfl
@[simp] theorem State_refuse_adcReadyAt (why : RefusalReason) (s : State) :
    (refuse why s).adcReadyAt = s.adcReadyAt := rfl
@[simp] theorem State_refuse_sched (why : RefusalReason) (s : State) :
    (refuse why s).sched = s.sched := rfl
@[simp] theorem State_refuse_ctl (why : RefusalReason) (s : State) :
    (refuse why s).ctl = s.ctl := rfl
@[simp] theorem State_refuse_latch (why : RefusalReason) (s : State) :
    (refuse why s).latch = s.latch := rfl
@[simp] theorem State_refuse_fsm (why : RefusalReason) (s : State) :
    (refuse why s).fsm = s.fsm := rfl

@[simp] theorem State_finish_conf (r : Result) (s : State) : (finish r s).conf = s.conf := rfl
@[simp] theorem State_finish_reqs (r : Result) (s : State) : (finish r s).reqs = s.reqs := rfl
@[simp] theorem State_finish_outcomes (r : Result) (s : State) :
    (finish r s).outcomes = s.outcomes ++ [.done r] := rfl
@[simp] theorem State_finish_refusalMark (r : Result) (s : State) :
    (finish r s).refusalMark = s.refusalMark := rfl
@[simp] theorem State_finish_draws (r : Result) (s : State) : (finish r s).draws = s.draws := rfl
@[simp] theorem State_finish_okOut (r : Result) (s : State) : (finish r s).okOut = s.okOut := rfl
@[simp] theorem State_finish_ports (r : Result) (s : State) : (finish r s).ports = s.ports := rfl
@[simp] theorem State_finish_pec (r : Result) (s : State) : (finish r s).pec = s.pec := rfl
@[simp] theorem State_finish_adcReadyAt (r : Result) (s : State) :
    (finish r s).adcReadyAt = s.adcReadyAt := rfl
@[simp] theorem State_finish_sched (r : Result) (s : State) : (finish r s).sched = s.sched := rfl
@[simp] theorem State_finish_ctl (r : Result) (s : State) : (finish r s).ctl = s.ctl := rfl
@[simp] theorem State_finish_latch (r : Result) (s : State) : (finish r s).latch = s.latch := rfl
@[simp] theorem State_finish_fsm (r : Result) (s : State) : (finish r s).fsm = s.fsm := rfl

@[simp] theorem State_redrawOkOut_conf (s : State) : (redrawOkOut s).conf = s.conf := rfl
@[simp] theorem State_redrawOkOut_reqs (s : State) : (redrawOkOut s).reqs = s.reqs := rfl
@[simp] theorem State_redrawOkOut_outcomes (s : State) :
    (redrawOkOut s).outcomes = s.outcomes := rfl
@[simp] theorem State_redrawOkOut_refusalMark (s : State) :
    (redrawOkOut s).refusalMark = s.refusalMark := rfl
@[simp] theorem State_redrawOkOut_draws (s : State) : (redrawOkOut s).draws = s.draws + 1 := rfl
@[simp] theorem State_redrawOkOut_okOut (s : State) :
    (redrawOkOut s).okOut = Config.freeOkOut s.draws := rfl
@[simp] theorem State_redrawOkOut_ports (s : State) : (redrawOkOut s).ports = s.ports := rfl
@[simp] theorem State_redrawOkOut_pec (s : State) : (redrawOkOut s).pec = s.pec := rfl
@[simp] theorem State_redrawOkOut_adcReadyAt (s : State) :
    (redrawOkOut s).adcReadyAt = s.adcReadyAt := rfl
@[simp] theorem State_redrawOkOut_sched (s : State) : (redrawOkOut s).sched = s.sched := rfl
@[simp] theorem State_redrawOkOut_ctl (s : State) : (redrawOkOut s).ctl = s.ctl := rfl
@[simp] theorem State_redrawOkOut_latch (s : State) : (redrawOkOut s).latch = s.latch := rfl
@[simp] theorem State_redrawOkOut_fsm (s : State) : (redrawOkOut s).fsm = s.fsm := rfl

@[simp] theorem State_fetched_conf (rest : List Request) (s : State) :
    (fetched rest s).conf = s.conf := rfl
@[simp] theorem State_fetched_reqs (rest : List Request) (s : State) :
    (fetched rest s).reqs = rest := rfl
@[simp] theorem State_fetched_outcomes (rest : List Request) (s : State) :
    (fetched rest s).outcomes = s.outcomes := rfl
@[simp] theorem State_fetched_refusalMark (rest : List Request) (s : State) :
    (fetched rest s).refusalMark = s.refusalMark := rfl
@[simp] theorem State_fetched_draws (rest : List Request) (s : State) :
    (fetched rest s).draws = s.draws + 1 := rfl
@[simp] theorem State_fetched_okOut (rest : List Request) (s : State) :
    (fetched rest s).okOut = Config.freeOkOut s.draws := rfl
@[simp] theorem State_fetched_ports (rest : List Request) (s : State) :
    (fetched rest s).ports = s.ports := rfl
@[simp] theorem State_fetched_pec (rest : List Request) (s : State) :
    (fetched rest s).pec = s.pec := rfl
@[simp] theorem State_fetched_adcReadyAt (rest : List Request) (s : State) :
    (fetched rest s).adcReadyAt = s.adcReadyAt := rfl
@[simp] theorem State_fetched_sched (rest : List Request) (s : State) :
    (fetched rest s).sched = s.sched := rfl
@[simp] theorem State_fetched_ctl (rest : List Request) (s : State) :
    (fetched rest s).ctl = s.ctl := rfl
@[simp] theorem State_fetched_latch (rest : List Request) (s : State) :
    (fetched rest s).latch = s.latch := rfl
@[simp] theorem State_fetched_fsm (rest : List Request) (s : State) :
    (fetched rest s).fsm = s.fsm := rfl

@[simp] theorem State_setChgEn_conf (en : Bool) (s : State) : (s.setChgEn en).conf = s.conf := rfl
@[simp] theorem State_setChgEn_reqs (en : Bool) (s : State) : (s.setChgEn en).reqs = s.reqs := rfl
@[simp] theorem State_setChgEn_outcomes (en : Bool) (s : State) :
    (s.setChgEn en).outcomes = s.outcomes := rfl
@[simp] theorem State_setChgEn_refusalMark (en : Bool) (s : State) :
    (s.setChgEn en).refusalMark = s.refusalMark := rfl
@[simp] theorem State_setChgEn_draws (en : Bool) (s : State) :
    (s.setChgEn en).draws = s.draws := rfl
@[simp] theorem State_setChgEn_okOut (en : Bool) (s : State) :
    (s.setChgEn en).okOut = s.okOut := rfl
@[simp] theorem State_setChgEn_ports (en : Bool) (s : State) :
    (s.setChgEn en).ports = s.ports := rfl
@[simp] theorem State_setChgEn_pec (en : Bool) (s : State) : (s.setChgEn en).pec = s.pec := rfl
@[simp] theorem State_setChgEn_adcReadyAt (en : Bool) (s : State) :
    (s.setChgEn en).adcReadyAt = s.adcReadyAt := rfl
@[simp] theorem State_setChgEn_sched (en : Bool) (s : State) :
    (s.setChgEn en).sched = s.sched := rfl
@[simp] theorem State_setChgEn_latch (en : Bool) (s : State) :
    (s.setChgEn en).latch = s.latch := rfl
@[simp] theorem State_setChgEn_fsm (en : Bool) (s : State) : (s.setChgEn en).fsm = s.fsm := rfl

@[simp] theorem State_setChgEn_ctl (en : Bool) (s : State) :
    (s.setChgEn en).ctl = { s.ctl with chgEn := en } := rfl

@[simp] theorem State_setWdArmed_conf (b : Bool) (s : State) : (s.setWdArmed b).conf = s.conf := rfl
@[simp] theorem State_setWdArmed_reqs (b : Bool) (s : State) : (s.setWdArmed b).reqs = s.reqs := rfl
@[simp] theorem State_setWdArmed_outcomes (b : Bool) (s : State) :
    (s.setWdArmed b).outcomes = s.outcomes := rfl
@[simp] theorem State_setWdArmed_refusalMark (b : Bool) (s : State) :
    (s.setWdArmed b).refusalMark = s.refusalMark := rfl
@[simp] theorem State_setWdArmed_draws (b : Bool) (s : State) :
    (s.setWdArmed b).draws = s.draws := rfl
@[simp] theorem State_setWdArmed_okOut (b : Bool) (s : State) :
    (s.setWdArmed b).okOut = s.okOut := rfl
@[simp] theorem State_setWdArmed_ports (b : Bool) (s : State) :
    (s.setWdArmed b).ports = s.ports := rfl
@[simp] theorem State_setWdArmed_pec (b : Bool) (s : State) : (s.setWdArmed b).pec = s.pec := rfl
@[simp] theorem State_setWdArmed_adcReadyAt (b : Bool) (s : State) :
    (s.setWdArmed b).adcReadyAt = s.adcReadyAt := rfl
@[simp] theorem State_setWdArmed_sched (b : Bool) (s : State) :
    (s.setWdArmed b).sched = s.sched := rfl
@[simp] theorem State_setWdArmed_ctl (b : Bool) (s : State) : (s.setWdArmed b).ctl = s.ctl := rfl
@[simp] theorem State_setWdArmed_latch (b : Bool) (s : State) :
    (s.setWdArmed b).latch = s.latch := rfl

@[simp] theorem State_setWdArmed_fsm (b : Bool) (s : State) :
    (s.setWdArmed b).fsm = { s.fsm with wdArmed := b } := rfl

@[simp] theorem State_setLatchOut_conf (b : Bool) (s : State) :
    (s.setLatchOut b).conf = s.conf := rfl
@[simp] theorem State_setLatchOut_reqs (b : Bool) (s : State) :
    (s.setLatchOut b).reqs = s.reqs := rfl
@[simp] theorem State_setLatchOut_outcomes (b : Bool) (s : State) :
    (s.setLatchOut b).outcomes = s.outcomes := rfl
@[simp] theorem State_setLatchOut_refusalMark (b : Bool) (s : State) :
    (s.setLatchOut b).refusalMark = s.refusalMark := rfl
@[simp] theorem State_setLatchOut_draws (b : Bool) (s : State) :
    (s.setLatchOut b).draws = s.draws := rfl
@[simp] theorem State_setLatchOut_okOut (b : Bool) (s : State) :
    (s.setLatchOut b).okOut = s.okOut := rfl
@[simp] theorem State_setLatchOut_ports (b : Bool) (s : State) :
    (s.setLatchOut b).ports = s.ports.emit (.latchEn b) := rfl
@[simp] theorem State_setLatchOut_pec (b : Bool) (s : State) : (s.setLatchOut b).pec = s.pec := rfl
@[simp] theorem State_setLatchOut_adcReadyAt (b : Bool) (s : State) :
    (s.setLatchOut b).adcReadyAt = s.adcReadyAt := rfl
@[simp] theorem State_setLatchOut_sched (b : Bool) (s : State) :
    (s.setLatchOut b).sched = s.sched := rfl
@[simp] theorem State_setLatchOut_ctl (b : Bool) (s : State) : (s.setLatchOut b).ctl = s.ctl := rfl
@[simp] theorem State_setLatchOut_latch (b : Bool) (s : State) :
    (s.setLatchOut b).latch = s.latch := rfl

@[simp] theorem State_setLatchOut_fsm (b : Bool) (s : State) :
    (s.setLatchOut b).fsm = { s.fsm with latchOut := b } := rfl

@[simp] theorem State_setFaultEntry_conf (now : Nat) (s : State) :
    (s.setFaultEntry now).conf = s.conf := rfl
@[simp] theorem State_setFaultEntry_reqs (now : Nat) (s : State) :
    (s.setFaultEntry now).reqs = s.reqs := rfl
@[simp] theorem State_setFaultEntry_outcomes (now : Nat) (s : State) :
    (s.setFaultEntry now).outcomes = s.outcomes := rfl
@[simp] theorem State_setFaultEntry_refusalMark (now : Nat) (s : State) :
    (s.setFaultEntry now).refusalMark = s.refusalMark := rfl
@[simp] theorem State_setFaultEntry_draws (now : Nat) (s : State) :
    (s.setFaultEntry now).draws = s.draws := rfl
@[simp] theorem State_setFaultEntry_okOut (now : Nat) (s : State) :
    (s.setFaultEntry now).okOut = s.okOut := rfl
@[simp] theorem State_setFaultEntry_ports (now : Nat) (s : State) :
    (s.setFaultEntry now).ports = s.ports := rfl
@[simp] theorem State_setFaultEntry_pec (now : Nat) (s : State) :
    (s.setFaultEntry now).pec = s.pec := rfl
@[simp] theorem State_setFaultEntry_adcReadyAt (now : Nat) (s : State) :
    (s.setFaultEntry now).adcReadyAt = s.adcReadyAt := rfl
@[simp] theorem State_setFaultEntry_sched (now : Nat) (s : State) :
    (s.setFaultEntry now).sched = s.sched := rfl
@[simp] theorem State_setFaultEntry_ctl (now : Nat) (s : State) :
    (s.setFaultEntry now).ctl = s.ctl := rfl
@[simp] theorem State_setFaultEntry_latch (now : Nat) (s : State) :
    (s.setFaultEntry now).latch = s.latch := rfl

@[simp] theorem State_setFaultEntry_fsm (now : Nat) (s : State) :
    (s.setFaultEntry now).fsm = { s.fsm with faultEntry := now } := rfl

@[simp] theorem State_setAcuState_conf (n : AcuState) (s : State) :
    (s.setAcuState n).conf = s.conf := rfl
@[simp] theorem State_setAcuState_reqs (n : AcuState) (s : State) :
    (s.setAcuState n).reqs = s.reqs := rfl
@[simp] theorem State_setAcuState_outcomes (n : AcuState) (s : State) :
    (s.setAcuState n).outcomes = s.outcomes := rfl
@[simp] theorem State_setAcuState_refusalMark (n : AcuState) (s : State) :
    (s.setAcuState n).refusalMark = s.refusalMark := rfl
@[simp] theorem State_setAcuState_draws (n : AcuState) (s : State) :
    (s.setAcuState n).draws = s.draws := rfl
@[simp] theorem State_setAcuState_okOut (n : AcuState) (s : State) :
    (s.setAcuState n).okOut = s.okOut := rfl
@[simp] theorem State_setAcuState_ports (n : AcuState) (s : State) :
    (s.setAcuState n).ports = s.ports := rfl
@[simp] theorem State_setAcuState_pec (n : AcuState) (s : State) :
    (s.setAcuState n).pec = s.pec := rfl
@[simp] theorem State_setAcuState_adcReadyAt (n : AcuState) (s : State) :
    (s.setAcuState n).adcReadyAt = s.adcReadyAt := rfl
@[simp] theorem State_setAcuState_sched (n : AcuState) (s : State) :
    (s.setAcuState n).sched = s.sched := rfl
@[simp] theorem State_setAcuState_ctl (n : AcuState) (s : State) :
    (s.setAcuState n).ctl = s.ctl := rfl
@[simp] theorem State_setAcuState_latch (n : AcuState) (s : State) :
    (s.setAcuState n).latch = s.latch := rfl

@[simp] theorem State_setAcuState_fsm (n : AcuState) (s : State) :
    (s.setAcuState n).fsm = { s.fsm with state := n } := rfl

@[simp] theorem Ports_emit_csLow (e : PortEvent) (p : Ports) : (p.emit e).csLow = p.csLow := rfl
@[simp] theorem Ports_emit_trace (e : PortEvent) (p : Ports) :
    (p.emit e).trace = p.trace ++ [e] := rfl
@[simp] theorem Ports_emit_rx (e : PortEvent) (p : Ports) : (p.emit e).rx = p.rx := rfl
@[simp] theorem Ports_emit_xfers (e : PortEvent) (p : Ports) : (p.emit e).xfers = p.xfers := rfl
@[simp] theorem Ports_emit_clkUs (e : PortEvent) (p : Ports) : (p.emit e).clkUs = p.clkUs := rfl
@[simp] theorem Ports_emit_lapses (e : PortEvent) (p : Ports) : (p.emit e).lapses = p.lapses := rfl
@[simp] theorem Ports_emit_clockReads (e : PortEvent) (p : Ports) :
    (p.emit e).clockReads = p.clockReads := rfl

@[simp] theorem Ports_csDriveLow_trace (line : Nat) (p : Ports) :
    (p.csDriveLow line).trace = p.trace ++ [.cs line false] := rfl
@[simp] theorem Ports_csDriveLow_rx (line : Nat) (p : Ports) : (p.csDriveLow line).rx = p.rx := rfl
@[simp] theorem Ports_csDriveLow_xfers (line : Nat) (p : Ports) :
    (p.csDriveLow line).xfers = p.xfers := rfl
@[simp] theorem Ports_csDriveLow_clkUs (line : Nat) (p : Ports) :
    (p.csDriveLow line).clkUs = p.clkUs := rfl
@[simp] theorem Ports_csDriveLow_lapses (line : Nat) (p : Ports) :
    (p.csDriveLow line).lapses = p.lapses := rfl
@[simp] theorem Ports_csDriveLow_clockReads (line : Nat) (p : Ports) :
    (p.csDriveLow line).clockReads = p.clockReads := rfl

@[simp] theorem Ports_csDriveHigh_csLow (line : Nat) (p : Ports) :
    (p.csDriveHigh line).csLow = p.csLow.filter (fun l => l != line) := rfl
@[simp] theorem Ports_csDriveHigh_trace (line : Nat) (p : Ports) :
    (p.csDriveHigh line).trace = p.trace ++ [.cs line true] := rfl
@[simp] theorem Ports_csDriveHigh_rx (line : Nat) (p : Ports) :
    (p.csDriveHigh line).rx = p.rx := rfl
@[simp] theorem Ports_csDriveHigh_xfers (line : Nat) (p : Ports) :
    (p.csDriveHigh line).xfers = p.xfers := rfl
@[simp] theorem Ports_csDriveHigh_clkUs (line : Nat) (p : Ports) :
    (p.csDriveHigh line).clkUs = p.clkUs := rfl
@[simp] theorem Ports_csDriveHigh_lapses (line : Nat) (p : Ports) :
    (p.csDriveHigh line).lapses = p.lapses := rfl
@[simp] theorem Ports_csDriveHigh_clockReads (line : Nat) (p : Ports) :
    (p.csDriveHigh line).clockReads = p.clockReads := rfl

@[simp] theorem Ports_xfer_csLow (tx : Byte) (p : Ports) : ((p.xfer tx).2).csLow = p.csLow := rfl
@[simp] theorem Ports_xfer_trace (tx : Byte) (p : Ports) :
    ((p.xfer tx).2).trace = p.trace ++ [.xfer tx p.nextByte] := rfl
@[simp] theorem Ports_xfer_rx (tx : Byte) (p : Ports) : ((p.xfer tx).2).rx = p.rx.tail := rfl
@[simp] theorem Ports_xfer_xfers (tx : Byte) (p : Ports) :
    ((p.xfer tx).2).xfers = p.xfers + 1 := rfl
@[simp] theorem Ports_xfer_clkUs (tx : Byte) (p : Ports) : ((p.xfer tx).2).clkUs = p.clkUs := rfl
@[simp] theorem Ports_xfer_lapses (tx : Byte) (p : Ports) : ((p.xfer tx).2).lapses = p.lapses := rfl
@[simp] theorem Ports_xfer_clockReads (tx : Byte) (p : Ports) :
    ((p.xfer tx).2).clockReads = p.clockReads := rfl

@[simp] theorem Ports_waitUs_csLow (n : Nat) (p : Ports) : (p.waitUs n).csLow = p.csLow := rfl
@[simp] theorem Ports_waitUs_trace (n : Nat) (p : Ports) :
    (p.waitUs n).trace = p.trace ++ [.wait n] := rfl
@[simp] theorem Ports_waitUs_rx (n : Nat) (p : Ports) : (p.waitUs n).rx = p.rx := rfl
@[simp] theorem Ports_waitUs_xfers (n : Nat) (p : Ports) : (p.waitUs n).xfers = p.xfers := rfl
@[simp] theorem Ports_waitUs_clkUs (n : Nat) (p : Ports) :
    (p.waitUs n).clkUs = p.clkUs + n + p.lapse := rfl
@[simp] theorem Ports_waitUs_lapses (n : Nat) (p : Ports) :
    (p.waitUs n).lapses = p.lapses.tail := rfl
@[simp] theorem Ports_waitUs_clockReads (n : Nat) (p : Ports) :
    (p.waitUs n).clockReads = p.clockReads + 1 := rfl

@[simp] theorem SchedUnit_setChip_grp (u : SchedUnit) (c : Nat) (r : ChipRec) :
    (u.setChip c r).grp = u.grp := rfl
@[simp] theorem SchedUnit_setChip_cycle (u : SchedUnit) (c : Nat) (r : ChipRec) :
    (u.setChip c r).cycle = u.cycle := rfl
@[simp] theorem SchedUnit_setPair_grp (u : SchedUnit) (c : Nat) (g : ReadGroup) (q : Pair) :
    (u.setPair c g q).grp = u.grp := rfl
@[simp] theorem SchedUnit_setPair_cycle (u : SchedUnit) (c : Nat) (g : ReadGroup) (q : Pair) :
    (u.setPair c g q).cycle = u.cycle := rfl
@[simp] theorem SchedUnit_setCfg_grp (u : SchedUnit) (c : Nat) (f : CfgFields) :
    (u.setCfg c f).grp = u.grp := rfl
@[simp] theorem SchedUnit_setCfg_cycle (u : SchedUnit) (c : Nat) (f : CfgFields) :
    (u.setCfg c f).cycle = u.cycle := rfl
@[simp] theorem SchedUnit_advance_chips (g : ReadGroup) (u : SchedUnit) :
    (advance g u).chips = u.chips := rfl
@[simp] theorem SchedUnit_advance_grp (g : ReadGroup) (u : SchedUnit) :
    (advance g u).grp = groupBits (nextGroup g) := rfl

@[simp] theorem State_reset_conf : State.reset.conf = defaultConfig := rfl
@[simp] theorem defaultConfig_ctl :
    defaultConfig.ctl = { fittedCtl Config.openCtl with socSign := .plus } := rfl
@[simp] theorem defaultConfig_layout : defaultConfig.layout = defaultLayout := rfl

end Sys2Proof.Machine
end

