-- ==== Sys2Proof/Laws/Ops.lean ====
section
/-! SUPPORT. What the shared operations over records, operands and outcomes can do, once each. -/

namespace Sys2Proof

/-! ### Records indexed by an enumeration -/

@[simp] theorem PerGroup.get_set_same {α : Type} (p : PerGroup α) (g : ReadGroup) (v : α) :
    (p.set g v).get g = v := by cases g <;> rfl

theorem PerGroup.get_set_ne {α : Type} (p : PerGroup α) {g h : ReadGroup} (v : α) (hne : h ≠ g) :
    (p.set g v).get h = p.get h := by cases g <;> cases h <;> first | rfl | exact absurd rfl hne

@[simp] theorem PerGroup.get_const {α : Type} (v : α) (g : ReadGroup) :
    (PerGroup.const v).get g = v := by cases g <;> rfl

@[simp] theorem PerClass.get_ofFn {α : Type} (f : FaultClass → α) (k : FaultClass) :
    (PerClass.ofFn f).get k = f k := by cases k <;> rfl

@[simp] theorem PerClass.get_const {α : Type} (v : α) (k : FaultClass) :
    (PerClass.const v).get k = v := by cases k <;> rfl

theorem ReadGroup.mem_all (g : ReadGroup) : g ∈ ReadGroup.all := by cases g <;> decide

theorem FaultClass.mem_all (k : FaultClass) : k ∈ FaultClass.all := by cases k <;> decide

namespace Machine

/-! ### Outcomes -/

@[simp] theorem conclude_ok (s t : State) (r : Result) :
    conclude s (.ok (r, t)) = .next (finish r t) := rfl

@[simp] theorem conclude_error (s : State) (why : RefusalReason) :
    conclude s (.error why) = .next (refuse why s) := rfl

/-- An operation is done or refused, and nothing else. -/
theorem conclude_cases (s : State) (a : Answer) :
    (∃ r t, a = .ok (r, t) ∧ conclude s a = .next (finish r t)) ∨
      (∃ why, a = .error why ∧ conclude s a = .next (refuse why s)) := by
  cases a with
  | ok x => exact .inl ⟨x.1, x.2, rfl, rfl⟩
  | error why => exact .inr ⟨why, rfl, rfl⟩

/-! ### Operand forms -/

@[simp] theorem except_ok_bind {ε α β : Type} (a : α) (f : α → Except ε β) :
    (Except.ok a >>= f) = f a := rfl

@[simp] theorem except_error_bind {ε α β : Type} (e : ε) (f : α → Except ε β) :
    (Except.error e >>= f) = .error e := rfl

@[simp] theorem except_pure {ε α : Type} (a : α) : (pure a : Except ε α) = .ok a := rfl

@[simp] theorem require_true (why : RefusalReason) : require true why = .ok () := rfl

@[simp] theorem require_false (why : RefusalReason) : require false why = .error why := rfl

@[simp] theorem orRefuse_some {α : Type} (why : RefusalReason) (a : α) :
    orRefuse why (some a) = .ok a := rfl

@[simp] theorem orRefuse_none {α : Type} (why : RefusalReason) :
    orRefuse (α := α) why none = .error why := rfl

theorem requireTable_built {s : State} (h : s.pec.tableValid = true) : requireTable s = .ok () := by
  simp [requireTable, h]

theorem requireTable_unbuilt {s : State} (h : s.pec.tableValid = false) :
    requireTable s = .error .tableNotBuilt := by simp [requireTable, h]

/-- A number in range is its own value at the width. -/
theorem field_of_lt {w v : Nat} (h : v < 2 ^ w) : field w v = some (BitVec.ofNat w v) := by
  simp [field, h]

theorem field_of_ge {w v : Nat} (h : 2 ^ w ≤ v) : field w v = none := by
  simp [field, Nat.not_lt.mpr h]

/-- The six-byte operand form accepts exactly the lists of six bytes. -/
theorem sixBytes_eq_some {l : List Byte} {d : Six} : sixBytes l = some d ↔ l = d.toList := by
  constructor
  · intro h
    match l, h with
    | [a, b, c, e, f, g], h => cases h; rfl
  · rintro rfl; rfl

theorem sixBytes_eq_none {l : List Byte} : sixBytes l = none ↔ l.length ≠ 6 := by
  match l with
  | [] => simp [sixBytes]
  | [_] => simp [sixBytes]
  | [_, _] => simp [sixBytes]
  | [_, _, _] => simp [sixBytes]
  | [_, _, _, _] => simp [sixBytes]
  | [_, _, _, _, _] => simp [sixBytes]
  | [_, _, _, _, _, _] => simp [sixBytes]
  | _ :: _ :: _ :: _ :: _ :: _ :: _ :: _ => simp [sixBytes]

/-- The configuration operand form: the fields at their widths when all are in range. -/
theorem cfgFields_of_inRange {f : CfgArg} (h : f.inRange = true) :
    cfgFields f = some
      { gpioEnable := BitVec.ofNat 5 f.gpioEnable, refon := BitVec.ofNat 1 f.refon,
        adcopt := BitVec.ofNat 1 f.adcopt, vuv := BitVec.ofNat 12 f.vuv,
        vov := BitVec.ofNat 12 f.vov, dcc := BitVec.ofNat 12 f.dcc,
        dcto := BitVec.ofNat 4 f.dcto } := by
  simp only [CfgArg.inRange, Bool.and_eq_true, decide_eq_true_eq] at h
  obtain ⟨⟨⟨⟨⟨⟨h1, h2⟩, h3⟩, h4⟩, h5⟩, h6⟩, h7⟩ := h
  simp [cfgFields, field, h1, h2, h3, h4, h5, h6, h7]

theorem cfgFields_of_not_inRange {f : CfgArg} (h : f.inRange = false) : cfgFields f = none := by
  by_contra hne
  obtain ⟨x, hx⟩ := Option.ne_none_iff_exists'.mp hne
  simp only [cfgFields, field, Option.pure_def, Option.bind_eq_bind, Option.bind_eq_some_iff] at hx
  simp only [Option.ite_none_right_eq_some] at hx
  obtain ⟨_, ⟨h1, _⟩, _, ⟨h2, _⟩, _, ⟨h3, _⟩, _, ⟨h4, _⟩, _, ⟨h5, _⟩, _, ⟨h6, _⟩, _, ⟨h7, _⟩, _⟩ := hx
  have : f.inRange = true := by simp [CfgArg.inRange]; omega
  simp [this] at h

/-! ### Encodings of `GRP` -/

@[simp] theorem groupOfBits_groupBits (g : ReadGroup) : groupOfBits (groupBits g) = some g := by
  cases g <;> decide

theorem groupOfBits_eq_some {b : BitVec 3} {g : ReadGroup} :
    groupOfBits b = some g ↔ b = groupBits g := by
  constructor
  · revert b g
    have : ∀ b : BitVec 3, ∀ g ∈ ReadGroup.all, groupOfBits b = some g → b = groupBits g := by decide
    exact fun {b g} h => this b g (ReadGroup.mem_all g) h
  · rintro rfl; simp

/-- `GRP` names no group exactly at 6 and 7. -/
theorem groupOfBits_eq_none {b : BitVec 3} : groupOfBits b = none ↔ 6 ≤ b.toNat := by
  revert b; decide

theorem groupBits_lt (g : ReadGroup) : (groupBits g).toNat < 6 := by cases g <;> decide

end Machine
end Sys2Proof
end

