-- ==== Sys2Proof/Safety.lean ====
section
/-! DEFINITION. What counts as a sound state of the block and as a disciplined run, in the words the
statements use; and independent forms of what the spec defines a second time (the bit-serial PEC, the
violation table, the bytes the bus answers). -/

namespace Sys2Proof.Safety

open Sys2Proof Sys2Proof.Machine

/-! ### Units and their operations (00_scope R1, 10_state R21) -/

/-- The seven units, and the wire commands as the transport and scheduler transactions they are. -/
inductive UnitId where
  | u1 | u2 | u3 | u4 | u5 | u6 | u7 | wire
deriving DecidableEq, Repr

/-- The unit an instruction is an operation of: the high nibble of its `OPSEL` (30_encoding R107). -/
def unitOf : Instr → UnitId
  | .pecBuild => .u1
  | .pecCompute _ => .u1
  | .pecCheck _ _ _ => .u1
  | .codecCmd _ _ => .u2
  | .codecCfgpack _ => .u2
  | .codecCfgunpack _ => .u2
  | .codecGrpunpack _ => .u2
  | .codecCmpv _ _ => .u2
  | .codecBtemp _ => .u2
  | .codecHumid _ => .u2
  | .codecTherm _ => .u2
  | .spiWakeup _ => .u3
  | .spiWrreg _ _ _ => .u3
  | .spiRdreg _ _ => .u3
  | .spiAdcstart _ _ _ => .u3
  | .schedSetcfg _ _ => .u4
  | .schedNext => .u4
  | .schedFaultdata => .u4
  | .ctlInit _ _ => .u5
  | .ctlSetchg _ => .u5
  | .ctlEvaluate _ _ _ => .u5
  | .latchUpdate _ _ _ => .u6
  | .latchClear => .u6
  | .latchRead => .u6
  | .fsmAdvance _ _ _ _ _ => .u7
  | .wdKick => .u7
  | .wrcfg _ _ => .wire
  | .rdcva _ _ => .wire
  | .rdcvb _ _ => .wire
  | .rdcvc _ _ => .wire
  | .rdcvd _ _ => .wire
  | .rdauxa _ _ => .wire
  | .rdauxb _ _ => .wire
  | .adc _ _ _ _ => .wire

/-- The wire command that reads group `g`. -/
def readInstr (g : ReadGroup) (line : Nat) (addr : BitVec 4) : Instr :=
  match g with
  | .cvA => .rdcva line addr
  | .cvB => .rdcvb line addr
  | .cvC => .rdcvc line addr
  | .cvD => .rdcvd line addr
  | .auxA => .rdauxa line addr
  | .auxB => .rdauxb line addr

/-- Instructions executed one after another, each in the state the one before leaves; `none` if one
does not answer a next state. -/
def execAll : List Instr → State → Option State
  | [], s => some s
  | i :: rest, s =>
    match exec i s with
    | .next t => execAll rest t
    | _ => none

/-! ### The bus -/

/-- The next `n` bytes the bus answers (20_memory R66). -/
def busAnswer (p : Ports) (n : Nat) : List Byte :=
  (List.range n).map fun i => p.rx.getD i (Config.freeByte (p.xfers + i))

/-- The two bytes of the command frame for an address below 16 and a command code below 2048
(30_encoding R91, "In formulas"). -/
def commandBytes (addr cc : Nat) : List Byte :=
  [BitVec.ofNat 8 (0x80 + addr * 8 + cc / 256), BitVec.ofNat 8 (cc % 256)]

/-- The port activity of sending `txs` while the bus answers `rxs`. -/
def xferEvents (txs rxs : List Byte) : List PortEvent := List.zipWith PortEvent.xfer txs rxs

/-- The ports after one chip-select window on `line` in which `txs` are sent, from all lines high. -/
def afterWindow (line : Nat) (txs : List Byte) (p : Ports) : Ports :=
  { p with
    trace := p.trace ++ PortEvent.cs line false ::
      (xferEvents txs (busAnswer p txs.length) ++ [PortEvent.cs line true])
    rx := p.rx.drop txs.length
    xfers := p.xfers + txs.length }

/-- Chip-select discipline over port activity, started with the line `low` (if any) low: a line is
driven low only while none is low, bytes move only while one is low, and the line driven high is the
one that is low (42_transport R189). The answer is the line low at the end, or `none` if the
discipline is broken. -/
def csScan : List PortEvent → Option Nat → Option (Option Nat)
  | [], low => some low
  | .cs line false :: rest, none => csScan rest (some line)
  | .cs _ false :: _, some _ => none
  | .cs line true :: rest, some l => if line = l then csScan rest none else none
  | .cs _ true :: _, none => none
  | .xfer _ _ :: rest, some l => csScan rest (some l)
  | .xfer _ _ :: _, none => none
  | .wait _ :: rest, low => csScan rest low
  | .wdKick _ :: rest, low => csScan rest low
  | .latchEn _ :: rest, low => csScan rest low

/-- The bytes sent in each chip-select window, oldest window first; `acc` is the window now open. -/
def sentFrames : List PortEvent → List Byte → List (List Byte)
  | [], _ => []
  | .cs _ false :: rest, _ => sentFrames rest []
  | .cs _ true :: rest, acc => acc :: sentFrames rest []
  | .xfer tx _ :: rest, acc => sentFrames rest (acc ++ [tx])
  | .wait _ :: rest, acc => sentFrames rest acc
  | .wdKick _ :: rest, acc => sentFrames rest acc
  | .latchEn _ :: rest, acc => sentFrames rest acc

/-! ### The PEC a second time: bit-serial (40_pec R137) -/

/-- One data bit into the 15-bit register. -/
def serialBit (reg : BitVec 15) (bit : Bool) : BitVec 15 :=
  if reg.getLsbD 14 != bit then (reg <<< 1) ^^^ 0x4599#15 else reg <<< 1

/-- The eight bits of a byte, most significant first. -/
def serialByte (reg : BitVec 15) (d : Byte) : BitVec 15 :=
  [7, 6, 5, 4, 3, 2, 1, 0].foldl (fun r i => serialBit r (d.getLsbD i)) reg

/-- The remainder of a byte sequence. -/
def serialRemainder (data : List Byte) : BitVec 15 := data.foldl serialByte 0x0010#15

/-- The two PEC bytes: the remainder in bits 15 to 1, bit 0 zero, big-endian. -/
def serialPec (data : List Byte) : List Byte :=
  let p : Code := serialRemainder data ++ 0#1
  [p.extractLsb' 8 8, p.extractLsb' 0 8]

/-- A frame as the block may send it: the one byte of a wake-up, or a command with address bit 7 set
and its PEC, alone, before eight fill bytes of a read, or before six data bytes and their PEC
(30_encoding R90, R91, R94 to R96; 40_pec R135). -/
def frameSound (txFill : Byte) (f : List Byte) : Prop :=
  f = [txFill] ∨ ∃ b0 b1 : Byte, b0.getLsbD 7 = true ∧
    (f = [b0, b1] ++ serialPec [b0, b1] ∨
      f = [b0, b1] ++ serialPec [b0, b1] ++ List.replicate 8 txFill ∨
      ∃ d : Six, f = [b0, b1] ++ serialPec [b0, b1] ++ d.toList ++ serialPec d.toList)

/-! ### The fault classes a second time: as the spec's table words them (60_exceptions R342) -/

/-- The compensated cell voltage of 44_fault_comparator R236 and R237; with no cell to divide by, the
resistance is a value the spec does not give (entry 22). -/
def vEff (k : CtlConf) (packCurrent v : Rat) : Rat :=
  v + (if k.irCellCount = 0 then Config.freeQuotient k.packIrOhm
    else k.packIrOhm / (k.irCellCount : Rat)) * -packCurrent

/-- Class `c` is violated at a tick, before masking (60_exceptions R342). -/
def violatedRaw (k : CtlConf) (chgEn : Bool) (snap : Snapshot) (cur : Rat) : FaultClass → Prop
  | .ov => k.ovThreshV ≤ snap.maxCellV ∧ k.ovThreshV ≤ vEff k cur snap.maxCellV
  | .uv => snap.minCellV ≤ k.uvThreshV ∧ vEff k cur snap.minCellV ≤ k.uvThreshV
  | .packUv => snap.packV ≤ k.minPackV
  | .cellOt => (if chgEn then k.otChargeCell else k.otRunCell) ≤ snap.maxCellTemp
  | .boardOt => (if chgEn then k.otChargeBoard else k.otRunBoard) ≤ snap.maxBoardTemp
  | .invalidPkt => k.invalidCountThresh ≤ snap.maxInvalidCount

/-- Class `c` is violated at a tick: an invalid-packet tick masks every class but `INVALID_PKT`
(44_fault_comparator R242). -/
def violated (k : CtlConf) (chgEn : Bool) (snap : Snapshot) (cur : Rat) (c : FaultClass) : Prop :=
  violatedRaw k chgEn snap cur c ∧ (snap.maxInvalidCount = 0 ∨ c = .invalidPkt)

/-- What `CTL.EVALUATE` needs to be done rather than refused (44_fault_comparator R234; entries 21,
22). -/
def evaluable (snap : Snapshot) (now : Nat) (s : State) : Prop :=
  s.ctl.ready = true ∧ s.ctl.lastEval ≤ now ∧
    (s.ctl.cfgOk = true → 0 < s.conf.ctl.irCellCount ∧ 0 < s.conf.ctl.capacityAh) ∧
    snap.cellV.length = s.conf.nCellsTotal

/-! ### Sound states -/

/-- Every chip-select line is high (10_state R44). -/
abbrev linesHigh (s : State) : Prop := s.ports.csLow = []

/-- `GRP` is one of the six groups (10_state R27). -/
abbrev groupLegal (s : State) : Prop := s.sched.grp.toNat < 6

/-- A built table is the table of `PEC.BUILD` (20_memory R73 (a)). -/
abbrev tableSound (s : State) : Prop := s.pec.tableValid = true → s.pec.table = pecTable

/-- `SOC` is in the closed interval 0 to 1 (45_balance_soc R274). -/
abbrev socInRange (s : State) : Prop := 0 ≤ s.ctl.soc ∧ s.ctl.soc ≤ 1

/-- The per-chip and per-cell stores have an entry for each chip and cell. -/
abbrev storesSized (s : State) : Prop :=
  s.sched.chips.length = s.conf.nChips ∧ s.adcReadyAt.length = s.conf.nChips ∧
    s.ctl.bal.length = s.conf.nCellsTotal

/-- The latch output is asserted exactly in `FAULTED`, and outside `FAULTED` the watchdog is armed
(47_acu_fsm R307, R309, R311). -/
abbrev outputsSound (s : State) : Prop :=
  (s.fsm.latchOut = true ↔ s.fsm.state = .faulted) ∧
    (s.fsm.state ≠ .faulted → s.fsm.wdArmed = true)

/-- `BMS_OK` is false while a fault stands, and only after a not-ok tick (44_fault_comparator R246). -/
abbrev bmsOkSound (s : State) : Prop :=
  (s.ctl.hasFault = true → s.ctl.bmsOk = false) ∧ (s.ctl.bmsOk = false → s.ctl.notOkSeen = true)

/-- No stored time of the controller lies after its last tick, and no tick was not-ok before `CTL.INIT`
(44_fault_comparator R232, R249). -/
abbrev timesSound (s : State) : Prop :=
  (∀ k ∈ FaultClass.all, s.ctl.lastOk.get k ≤ s.ctl.lastEval) ∧
    (s.ctl.notOkSeen = true → s.ctl.ready = true ∧ s.ctl.lastNotOk ≤ s.ctl.lastEval)

/-- A signal last observed false has its latch set (46_latch R291, R292). -/
abbrev latchesSound (s : State) : Prop :=
  (s.latch.obsBmsOk = false → s.latch.latchBms = true) ∧
    (s.latch.obsImdOk = false → s.latch.latchImd = true) ∧
    (s.latch.obsShdnOk = false → s.latch.latchShdn = true)

/-- A pair whose last packet was valid has no invalid run (43_scheduler R206). -/
abbrev countersSound (s : State) : Prop :=
  ∀ c, c < s.conf.nChips → ∀ g ∈ ReadGroup.all,
    (s.sched.pair c g).valid = true → (s.sched.pair c g).invCnt = 0

/-- A slot of kind `none` holds no sample (10_state R25, 43_scheduler R212 (a)). -/
def slotsSound (s : State) : Prop :=
  ∀ c ch, s.conf.chips[c]? = some ch → ∀ g : ReadGroup,
    ((ch.kind.get g).s0 = .none → (s.sched.pair c g).sample.s0 = none) ∧
    ((ch.kind.get g).s1 = .none → (s.sched.pair c g).sample.s1 = none) ∧
    ((ch.kind.get g).s2 = .none → (s.sched.pair c g).sample.s2 = none)

/-- A pair that is skipped was never read: its `VALID`, `INVCNT` and `SAMPLE` have their reset values
(43_scheduler R205). -/
def skippedUntouched (s : State) : Prop :=
  ∀ c ch, s.conf.chips[c]? = some ch → ∀ g : ReadGroup,
    ch.kind.get g = ⟨.none, .none, .none⟩ → s.sched.pair c g = Pair.reset

/-- The chip-select discipline holds over all port activity so far, and it ends with every line high
(42_transport R189). -/
abbrev busDisciplined (s : State) : Prop := csScan s.ports.trace none = some none

/-- Every frame sent so far is one the block may send. -/
def framesSound (s : State) : Prop :=
  ∀ f ∈ sentFrames s.ports.trace [], frameSound s.conf.txFill f

/-- The results of the conversion started last on chip `c` may be read (70_reset R397). The block does
not check it; a host must. -/
abbrev conversionDone (s : State) (c : Nat) : Prop := s.adcReadyAt.getD c 0 ≤ s.ports.clkUs

/-- A line whose last activity was at `lastUs` may have been quiet for `T_IDLE`, so a host must wake it before
a command (70_reset R396). The block tracks neither idleness nor readiness; a host must. -/
abbrev wakeNeeded (s : State) (lastUs : Nat) : Prop := lastUs + s.conf.tIdleUs ≤ s.ports.clkUs

end Sys2Proof.Safety
end

