-- ==== Sys2Proof/Laws/Codec.lean ====
section
/-! SUPPORT. What packing and unpacking the configuration fields can do: bit by bit in any layout, and in
closed form in the layout of 30_encoding R99 to R103. -/

namespace Sys2Proof.Machine

@[simp] theorem byteOfBits_getLsbD (f : Nat → Bool) {b : Nat} (h : b < 8) :
    (byteOfBits f).getLsbD b = f b := by
  have key : ∀ a0 a1 a2 a3 a4 a5 a6 a7 : Bool, ∀ i, i < 8 →
      (byteOfBits fun n => [a0, a1, a2, a3, a4, a5, a6, a7].getD n false).getLsbD i =
        [a0, a1, a2, a3, a4, a5, a6, a7].getD i false := by decide +kernel
  have := key (f 0) (f 1) (f 2) (f 3) (f 4) (f 5) (f 6) (f 7) b h
  interval_cases b <;> exact this

/-- Every bit of a packed record is the image bit of its position (30_encoding R98). -/
theorem sixBit_cfgPack (l : CfgLayout) (f : CfgFields) {p : Nat} (h : p < 48) :
    sixBit (cfgPack l f) p = imageBit l f p := by
  have hb : p % 8 < 8 := Nat.mod_lt _ (by norm_num)
  have hp : 8 * (p / 8) + p % 8 = p := Nat.div_add_mod p 8
  have hq : p / 8 < 6 := by omega
  have h6 : sixBit (cfgPack l f) p =
      (byteOfBits fun b => imageBit l f (8 * (p / 8) + b)).getLsbD (p % 8) := by
    simp only [sixBit]
    generalize p / 8 = j at hq ⊢
    interval_cases j <;> rfl
  rw [h6, byteOfBits_getLsbD _ hb, hp]

/-- Bit `i` of a gathered number is the bit at the `i`-th position. -/
theorem testBit_gather (d : Six) (pos : List Nat) (i : Nat) :
    (gather d pos).testBit i = (pos[i]?.map (sixBit d)).getD false := by
  induction pos generalizing i with
  | nil => simp [gather]
  | cons p rest ih =>
    have h : gather d (p :: rest) = 2 * gather d rest + (sixBit d p).toNat := rfl
    have hlt : (sixBit d p).toNat < 2 := by cases sixBit d p <;> decide
    cases i with
    | zero =>
      rw [h]; cases hb : sixBit d p <;> simp [hb]
    | succ i =>
      rw [h, Nat.testBit_succ, show (2 * gather d rest + (sixBit d p).toNat) / 2 = gather d rest by omega, ih]
      rfl

/-- `CODEC.CFGPACK` in the default layout (30_encoding R99 to R103). -/
theorem cfgPack_default (f : CfgFields) : cfgPack defaultLayout f =
    { d0 := f.gpioEnable ++ f.refon ++ 0#1 ++ f.adcopt
      d1 := f.vuv.extractLsb' 0 8
      d2 := f.vov.extractLsb' 0 4 ++ f.vuv.extractLsb' 8 4
      d3 := f.vov.extractLsb' 4 8
      d4 := f.dcc.extractLsb' 0 8
      d5 := f.dcto ++ f.dcc.extractLsb' 8 4 } := by
  have key : ∀ (j : Nat) (b : Byte), (∀ i, i < 8 → imageBit defaultLayout f (8 * j + i) = b.getLsbD i) →
      (byteOfBits fun i => imageBit defaultLayout f (8 * j + i)) = b := by
    intro j b h
    apply BitVec.eq_of_getLsbD_eq
    intro i hi
    rw [byteOfBits_getLsbD _ hi]; exact h i hi
  simp only [cfgPack, Six.mk.injEq]
  have app : ∀ (x y : BitVec 4) (i : Nat), BitVec.getLsbD (w := 8) (x ++ y) i =
      if i < 4 then y.getLsbD i else x.getLsbD (i - 4) := fun x y i => BitVec.getLsbD_append
  have app0 : ∀ (x : BitVec 5) (y z : BitVec 1) (i : Nat), i < 8 →
      BitVec.getLsbD (w := 8) (x ++ y ++ 0#1 ++ z) i =
        if i < 1 then z.getLsbD i else if i < 2 then false else if i < 3 then y.getLsbD (i - 2)
        else x.getLsbD (i - 3) := by decide +kernel
  refine ⟨key 0 _ ?_, key 1 _ ?_, key 2 _ ?_, key 3 _ ?_, key 4 _ ?_, key 5 _ ?_⟩ <;>
    intro i hi <;> (first | rw [app0 _ _ _ _ hi] | rw [app] | skip) <;> interval_cases i <;>
    simp [imageBit, placedFields, placedBit, defaultLayout]

/-- `CODEC.CFGUNPACK` in the default layout (41_codec R153). -/
theorem cfgUnpack_default (d : Six) : cfgUnpack defaultLayout d =
    { gpioEnable := d.d0.extractLsb' 3 5
      refon := d.d0.extractLsb' 2 1
      adcopt := d.d0.extractLsb' 0 1
      vuv := d.d2.extractLsb' 0 4 ++ d.d1
      vov := d.d3 ++ d.d2.extractLsb' 4 4
      dcc := d.d5.extractLsb' 0 4 ++ d.d4
      dcto := d.d5.extractLsb' 4 4 } := by
  have key : ∀ (w : Nat) (pos : List Nat) (x : BitVec w),
      (∀ i, i < w → (pos[i]?.map (sixBit d)).getD false = x.getLsbD i) →
      BitVec.ofNat w (gather d pos) = x := by
    intro w pos x h
    apply BitVec.eq_of_getLsbD_eq
    intro i hi
    rw [BitVec.getLsbD_ofNat, testBit_gather, h i hi]
    simp [hi]
  have low : ∀ (x : BitVec 4) (y : Byte) (i : Nat), BitVec.getLsbD (w := 12) (x ++ y) i =
      if i < 8 then y.getLsbD i else x.getLsbD (i - 8) := fun x y i => BitVec.getLsbD_append
  have high : ∀ (x : Byte) (y : BitVec 4) (i : Nat), BitVec.getLsbD (w := 12) (x ++ y) i =
      if i < 4 then y.getLsbD i else x.getLsbD (i - 4) := fun x y i => BitVec.getLsbD_append
  simp only [cfgUnpack, CfgFields.mk.injEq]
  refine ⟨key _ _ _ ?_, key _ _ _ ?_, key _ _ _ ?_, key _ _ _ ?_, key _ _ _ ?_, key _ _ _ ?_,
      key _ _ _ ?_⟩ <;>
    intro i hi <;> (first | rw [low] | rw [high] | skip) <;> interval_cases i <;>
    simp [sixBit, defaultLayout, Six.toList]

end Sys2Proof.Machine
end

