-- ==== Sys2Proof/Laws/Controller.lean ====
section
/-! SUPPORT. What a controller tick does to each field of U5, said once. -/

namespace Sys2Proof.Machine

open Sys2Proof.Safety

/-- The tests of a tick are the table of 60_exceptions R342 with the mask of 44_fault_comparator R242. -/
theorem violations_get (k : FaultClass) (conf : CtlConf) (chg : Bool) (snap : Snapshot) (cur : Rat) :
    (violations conf chg snap cur).get k = true ↔ violated conf chg snap cur k := by
  cases k <;>
    simp [violations, PerClass.get, violated, violatedRaw, violOv, violUv, violPackUv, violCellOt,
      violBoardOt, violInvalidPkt, vEff, compensated, cellResistance, quotient, dischargeCurrent] <;>
    (try tauto)

/-- `HAS_FAULT` is the OR of the six classes and the configuration fault (44_fault_comparator R245). -/
theorem hasFaultOf_eq_true (f : PerClass Bool) (cfgOk : Bool) :
    hasFaultOf f cfgOk = true ↔ (∃ k, f.get k = true) ∨ cfgOk = false := by
  have : (∃ k, f.get k = true) ↔ f.ov = true ∨ f.uv = true ∨ f.packUv = true ∨ f.cellOt = true ∨
      f.boardOt = true ∨ f.invalidPkt = true := by
    constructor
    · rintro ⟨k, hk⟩
      cases k <;> simp [PerClass.get] at hk <;> simp [hk]
    · rintro (h | h | h | h | h | h)
      exacts [⟨.ov, h⟩, ⟨.uv, h⟩, ⟨.packUv, h⟩, ⟨.cellOt, h⟩, ⟨.boardOt, h⟩, ⟨.invalidPkt, h⟩]
  rw [this]
  simp [hasFaultOf, or_assoc]

/-- What `UpdateBmsOk` leaves alone. -/
theorem updateBmsOk_frame (conf : CtlConf) (now : Nat) (u : CtlUnit) :
    updateBmsOk conf now u = { u with bmsOk := (updateBmsOk conf now u).bmsOk,
                                      lastNotOk := (updateBmsOk conf now u).lastNotOk,
                                      notOkSeen := (updateBmsOk conf now u).notOkSeen } := by
  simp only [updateBmsOk]
  split
  · rfl
  · split <;> rfl

/-- Every field after a tick, but for the second debounce layer (44_fault_comparator R234). -/
theorem evaluateTick_eq (conf : CtlConf) (snap : Snapshot) (now : Nat) (cur : Rat) (u : CtlUnit) :
    let v := updateFaults conf now (violations conf u.chgEn snap cur) u
    let w := updateBmsOk conf now v
    let temp := balTempAfter conf snap.maxBoardTemp u.balTempOk
    evaluateTick conf snap now cur u =
      { v with bmsOk := w.bmsOk, lastNotOk := w.lastNotOk, notOkSeen := w.notOkSeen, balTempOk := temp,
               bal := snap.cellV.map (balFlag conf (u.chgEn && temp) snap.minCellV),
               soc := socAfter conf (now - u.lastEval) cur u.soc, lastEval := now } := by
  intro v w temp
  show updateSoc conf now cur (updateBalance conf snap w) = _
  have hw : w = { v with bmsOk := w.bmsOk, lastNotOk := w.lastNotOk, notOkSeen := w.notOkSeen } :=
    updateBmsOk_frame conf now v
  rw [hw]
  rfl

/-- The controller configuration of the reset block meets its constraints (70_reset R387). -/
theorem fittedCtl_valid (k : CtlConf) (sign : SocSign) :
    { fittedCtl k with socSign := sign }.valid = true := by
  have hp : ∀ q, 0 < positive q := by
    intro q; simp only [positive]; split
    · rename_i h; exact one_div_pos.mpr (by linarith)
    · rename_i h; linarith [not_lt.mp h]
  have hn : ∀ q, 0 ≤ nonneg q := by
    intro q; simp only [nonneg]; split
    · rename_i h; linarith
    · rename_i h; exact not_lt.mp h
  have hu : ∀ q, 0 ≤ clamp01 q ∧ clamp01 q ≤ 1 := by
    intro q; simp only [clamp01]; split
    · norm_num
    · rename_i h; split
      · norm_num
      · rename_i h2; exact ⟨not_lt.mp h, not_lt.mp h2⟩
  simp [fittedCtl, CtlConf.valid, hp, hn, hu]

/-- The clamp of 45_balance_soc R273. -/
theorem clamp01_eq (q : Rat) : clamp01 q = min 1 (max 0 q) := by
  simp only [clamp01]
  split
  · rename_i h; rw [max_eq_left h.le]; norm_num
  · rename_i h
    rw [max_eq_right (not_lt.mp h)]
    split
    · rename_i h2; rw [min_eq_left h2.le]
    · rename_i h2; rw [min_eq_right (not_lt.mp h2)]

/-- The answer of a tick that is not refused. -/
theorem execCtlEvaluate_of_evaluable {s : State} {snap : Snapshot} {now : Nat} (cur : Rat)
    (h : evaluable snap now s) :
    execCtlEvaluate snap now cur s = .next (finish
      (.status (statusOf (evaluateTick s.conf.ctl snap now cur s.ctl)))
      { s with ctl := evaluateTick s.conf.ctl snap now cur s.ctl }) := by
  obtain ⟨h, h1, h2, h3⟩ := h
  have : (!s.ctl.cfgOk || divisorsOk s.conf.ctl) = true := by
    cases hc : s.ctl.cfgOk
    · rfl
    · simp [divisorsOk, h2 hc]
  simp [execCtlEvaluate, h, h1, this, h3]

end Sys2Proof.Machine
end

