-- ==== Sys2Proof/Laws/Bus.lean ====
section
/-! SUPPORT. What the port operations and the bus transactions can do, once each, in closed form. -/

namespace Sys2Proof.Machine

open Sys2Proof.Safety

theorem busAnswer_length (p : Ports) (n : Nat) : (busAnswer p n).length = n := by simp [busAnswer]

theorem busAnswer_succ (p : Ports) (tx : Byte) (n : Nat) :
    busAnswer p (n + 1) = p.nextByte :: busAnswer (p.xfer tx).2 n := by
  simp only [busAnswer, List.range_succ_eq_map, List.map_cons, List.map_map, Ports.nextByte]
  congr 1
  · cases p.rx <;> simp
  · apply List.map_congr_left
    intro i _
    rw [Function.comp, Ports_xfer_rx, Ports_xfer_xfers,
      show p.xfers + 1 + i = p.xfers + Nat.succ i by omega]
    cases p.rx <;> simp

/-- `Xfer` of a list of bytes: the answers, and the ports after. -/
theorem xferAll_eq (txs : List Byte) (p : Ports) :
    Ports.xferAll txs p = (busAnswer p txs.length,
      { p with trace := p.trace ++ xferEvents txs (busAnswer p txs.length),
               rx := p.rx.drop txs.length, xfers := p.xfers + txs.length }) := by
  induction txs generalizing p with
  | nil => simp [Ports.xferAll, busAnswer, xferEvents]
  | cons tx rest ih =>
    simp only [Ports.xferAll, ih, List.length_cons, busAnswer_succ p tx rest.length]
    simp [Ports.xfer, xferEvents, List.append_assoc, Nat.add_assoc, Nat.add_comm 1]

/-- One chip-select window: the answers, and the ports after. -/
theorem busWindow_eq (line : Nat) (txs : List Byte) (p : Ports) :
    busWindow line txs p = (busAnswer p txs.length,
      { afterWindow line txs p with
          csLow := (p.csDriveLow line).csLow.filter (fun l => l != line) }) := by
  simp only [busWindow, xferAll_eq, afterWindow, Ports.csDriveHigh, Ports.csDriveLow]
  simp [busAnswer, List.append_assoc]

theorem csDriveLow_of_high {line : Nat} {p : Ports} (h : p.csLow = []) :
    (p.csDriveLow line).csLow = [line] := by simp [Ports.csDriveLow, h]

/-- One chip-select window from all lines high ends with all lines high. -/
theorem busWindow_high {p : Ports} (h : p.csLow = []) (line : Nat) (txs : List Byte) :
    busWindow line txs p = (busAnswer p txs.length, afterWindow line txs p) := by
  rw [busWindow_eq, csDriveLow_of_high h]
  simp [afterWindow, h]

@[simp] theorem cmdFrame_length (a : BitVec 4) (c : BitVec 11) : (cmdFrame a c).length = 2 := rfl

@[simp] theorem pecBytes_length (t : Vector Code 256) (d : List Byte) : (pecBytes t d).length = 2 := rfl

@[simp] theorem pecAppend_length (t : Vector Code 256) (d : List Byte) :
    (pecAppend t d).length = d.length + 2 := by simp [pecAppend]

@[simp] theorem cmd4_length (t : Vector Code 256) (a : BitVec 4) (c : BitVec 11) :
    (cmd4 t a c).length = 4 := by simp [cmd4]

@[simp] theorem Six.toList_length (d : Six) : d.toList.length = 6 := rfl

@[simp] theorem readFrame_length (t : Vector Code 256) (f : Byte) (ch : ChipConf) (c : BitVec 11) :
    (readFrame t f ch c).length = 12 := by simp [readFrame]

/-- A list of eight bytes is six bytes and two. -/
theorem eq_six_append_two {l : List Byte} (h : l.length = 8) :
    ∃ (d : Six) (r6 r7 : Byte), l = d.toList ++ [r6, r7] := by
  match l, h with
  | [a, b, c, d, e, f, g, i], _ => exact ⟨⟨a, b, c, d, e, f⟩, g, i, rfl⟩

theorem checkGroup_eq (t : Vector Code 256) (d : Six) (r6 r7 : Byte) :
    checkGroup t (d.toList ++ [r6, r7]) = (d.toList, pecMatches t d.toList r6 r7) := rfl

/-- A register read: six data bytes, the verdict on them, and one window on the chip's line. -/
theorem readGroup_spec (t : Vector Code 256) (f : Byte) (ch : ChipConf) (cc : BitVec 11) (p : Ports) :
    ∃ (d : Six) (r6 r7 : Byte), (busAnswer p 12).drop 4 = d.toList ++ [r6, r7] ∧
      readGroup t f ch cc p =
        ((d.toList, pecMatches t d.toList r6 r7), (busWindow ch.csLine (readFrame t f ch cc) p).2) := by
  have hlen : ((busAnswer p 12).drop 4).length = 8 := by simp [busAnswer_length]
  obtain ⟨d, r6, r7, hd⟩ := eq_six_append_two hlen
  refine ⟨d, r6, r7, hd, ?_⟩
  simp only [readGroup, busWindow_eq, readFrame_length, hd, checkGroup_eq]

/-- A wake-up from all lines high: one byte in one window, two waits; every field of the ports. -/
theorem wakeLine_high {p : Ports} (h : p.csLow = []) (f : Byte) (line : Nat) :
    ∃ now, p.clkUs + tCsUs + tWakeUs ≤ now ∧ wakeLine f line p =
      { p with
        trace := p.trace ++ [.cs line false, .wait tCsUs, .xfer f p.nextByte, .cs line true, .wait tWakeUs]
        rx := p.rx.tail, xfers := p.xfers + 1, clkUs := now, lapses := p.lapses.drop 2
        clockReads := p.clockReads + 2 } := by
  refine ⟨(wakeLine f line p).clkUs, by simp [wakeLine]; omega, ?_⟩
  simp [wakeLine, h, Ports.xfer, Ports.waitUs, Ports.tick, Ports.emit, Ports.csDriveHigh,
    Ports.csDriveLow, Ports.nextByte, ← List.drop_one]

end Sys2Proof.Machine
end

