-- ==== Sys2Proof/Laws/Sched.lean ====
section
/-! SUPPORT. What the scheduler's operations can do, once each: the chip store, the read of a chip, the
round over the chips, the pre-step. -/

namespace Sys2Proof.Machine

open Sys2Proof.Safety

/-! ### The chip store -/

@[simp] theorem setChip_chips_length (u : SchedUnit) (c : Nat) (r : ChipRec) :
    (u.setChip c r).chips.length = u.chips.length := by simp [SchedUnit.setChip]

theorem chip_setChip_same {u : SchedUnit} {c : Nat} (h : c < u.chips.length) (r : ChipRec) :
    (u.setChip c r).chip c = r := by
  simp [SchedUnit.chip, SchedUnit.setChip, List.getD_eq_getElem?_getD, h]

theorem chip_setChip_ne {u : SchedUnit} {c d : Nat} (h : d ≠ c) (r : ChipRec) :
    (u.setChip c r).chip d = u.chip d := by
  simp [SchedUnit.chip, SchedUnit.setChip, List.getD_eq_getElem?_getD, List.getElem?_set_ne h.symm]

/-- Replacing a record of no chip changes nothing. -/
theorem setChip_of_ge {u : SchedUnit} {c : Nat} (h : u.chips.length ≤ c) (r : ChipRec) :
    u.setChip c r = u := by simp [SchedUnit.setChip, List.set_eq_of_length_le h]

theorem pair_setPair_same {u : SchedUnit} {c : Nat} (h : c < u.chips.length) (g : ReadGroup) (p : Pair) :
    (u.setPair c g p).pair c g = p := by
  simp [SchedUnit.pair, SchedUnit.setPair, chip_setChip_same h]

/-- Replacing the pair (`c`, `g`) leaves every other pair. -/
theorem pair_setPair_ne {u : SchedUnit} {c d : Nat} {g h : ReadGroup} (hne : d ≠ c ∨ h ≠ g) (p : Pair) :
    (u.setPair c g p).pair d h = u.pair d h := by
  by_cases hd : d = c
  · subst hd
    have hg : h ≠ g := by simpa using hne
    by_cases hlt : d < u.chips.length
    · simp [SchedUnit.pair, SchedUnit.setPair, chip_setChip_same hlt, PerGroup.get_set_ne _ _ hg]
    · rw [SchedUnit.setPair, setChip_of_ge (Nat.not_lt.mp hlt)]
  · simp [SchedUnit.pair, SchedUnit.setPair, chip_setChip_ne hd]

/-- Replacing a pair leaves every configuration image. -/
theorem cfg_setPair (u : SchedUnit) (c d : Nat) (g : ReadGroup) (p : Pair) :
    ((u.setPair c g p).chip d).cfg = (u.chip d).cfg := by
  by_cases hd : d = c
  · subst hd
    by_cases hlt : d < u.chips.length
    · simp [SchedUnit.setPair, chip_setChip_same hlt]
    · rw [SchedUnit.setPair, setChip_of_ge (Nat.not_lt.mp hlt)]
  · simp [SchedUnit.setPair, chip_setChip_ne hd]

/-- Replacing a configuration image leaves every pair. -/
theorem pair_setCfg (u : SchedUnit) (c d : Nat) (g : ReadGroup) (f : CfgFields) :
    (u.setCfg c f).pair d g = u.pair d g := by
  by_cases hd : d = c
  · subst hd
    by_cases hlt : d < u.chips.length
    · simp [SchedUnit.pair, SchedUnit.setCfg, chip_setChip_same hlt]
    · rw [SchedUnit.setCfg, setChip_of_ge (Nat.not_lt.mp hlt)]
  · simp [SchedUnit.pair, SchedUnit.setCfg, chip_setChip_ne hd]

@[simp] theorem setPair_chips_length (u : SchedUnit) (c : Nat) (g : ReadGroup) (p : Pair) :
    (u.setPair c g p).chips.length = u.chips.length := by simp [SchedUnit.setPair]

@[simp] theorem setCfg_chips_length (u : SchedUnit) (c : Nat) (f : CfgFields) :
    (u.setCfg c f).chips.length = u.chips.length := by simp [SchedUnit.setCfg]

/-! ### The read of one chip -/

/-- The pair after a packet of six bytes (43_scheduler R206, R207). -/
theorem pairAfter_toList (kinds : Triple Kind) (d : Six) (ok : Bool) (p : Pair) :
    pairAfter kinds d.toList ok p =
      if ok then commitCodes kinds (groupCodes d) (updateValidity true p)
      else updateValidity false p := by cases ok <;> rfl

/-- A chip whose group is skipped is not read; any other is read in one window, and its pair takes the
packet. -/
theorem readChip_cases (k : Config) (t : Vector Code 256) (g : ReadGroup) (ch : ChipConf) (c : Nat)
    (u : SchedUnit) (p : Ports) :
    (skipsGroup ch g = true ∧ readChip k t g ch c u p = (⟨none, .skipped⟩, u, p)) ∨
    (skipsGroup ch g = false ∧ ∃ (d : Six) (r6 r7 : Byte),
      (busAnswer p 12).drop 4 = d.toList ++ [r6, r7] ∧
      readChip k t g ch c u p =
        (⟨some (groupCodes d), if pecMatches t d.toList r6 r7 then .valid else .invalid⟩,
         u.setPair c g (pairAfter (ch.kind.get g) d.toList (pecMatches t d.toList r6 r7) (u.pair c g)),
         (busWindow ch.csLine (readFrame t k.txFill ch (k.codes.rd.get g)) p).2)) := by
  cases h : skipsGroup ch g with
  | true => exact .inl ⟨rfl, by simp [readChip, h]⟩
  | false =>
    obtain ⟨d, r6, r7, hd, hr⟩ := readGroup_spec t k.txFill ch (k.codes.rd.get g) p
    exact .inr ⟨rfl, d, r6, r7, hd, by simp [readChip, h, groupRead, reportOf, hr, reportCodes, sixBytes_eq_some.mpr rfl]⟩

/-- A read command answers what `ReadChip` answers and moves the same bytes; it stores nothing. -/
theorem readReport_eq (k : Config) (t : Vector Code 256) (g : ReadGroup) (ch : ChipConf) (c : Nat)
    (u : SchedUnit) (p : Ports) :
    readReport k t g ch p = ((readChip k t g ch c u p).1, (readChip k t g ch c u p).2.2) := by
  simp only [readReport, readChip]
  split <;> rfl

/-- The read of a chip changes no sequencing state, no configuration image, and no pair but its own. -/
theorem readChip_frame (k : Config) (t : Vector Code 256) (g : ReadGroup) (ch : ChipConf) (c : Nat)
    (u : SchedUnit) (p : Ports) :
    let v := (readChip k t g ch c u p).2.1
    v.grp = u.grp ∧ v.cycle = u.cycle ∧ v.chips.length = u.chips.length ∧
      (∀ d, (v.chip d).cfg = (u.chip d).cfg) ∧
      (∀ d h, d ≠ c ∨ h ≠ g → v.pair d h = u.pair d h) := by
  rcases readChip_cases k t g ch c u p with ⟨_, h⟩ | ⟨_, d, r6, r7, _, h⟩ <;> rw [h]
  · simp
  · exact ⟨rfl, rfl, by simp, fun e => cfg_setPair _ _ _ _ _, fun e x hx => pair_setPair_ne hx _⟩

theorem readChip_csLow {p : Ports} (hp : p.csLow = []) (k : Config) (t : Vector Code 256) (g : ReadGroup)
    (ch : ChipConf) (c : Nat) (u : SchedUnit) : (readChip k t g ch c u p).2.2.csLow = [] := by
  rcases readChip_cases k t g ch c u p with ⟨_, h⟩ | ⟨_, d, r6, r7, _, h⟩ <;> rw [h]
  · exact hp
  · simp [busWindow_high hp, afterWindow, hp]

/-! ### The round over the chips -/

/-- The round reads the chips one after another. -/
theorem readChips_cons (k : Config) (t : Vector Code 256) (g : ReadGroup) (x : ChipConf × Nat)
    (rest : List (ChipConf × Nat)) (u : SchedUnit) (p : Ports) :
    readChips k t g (x :: rest) u p =
      ((readChip k t g x.1 x.2 u p).1 ::
        (readChips k t g rest (readChip k t g x.1 x.2 u p).2.1 (readChip k t g x.1 x.2 u p).2.2).1,
       (readChips k t g rest (readChip k t g x.1 x.2 u p).2.1 (readChip k t g x.1 x.2 u p).2.2).2) := rfl

/-- A round answers one report a chip; it changes no sequencing state, no configuration image, and only
pairs of its group and its chips. -/
theorem readChips_frame (k : Config) (t : Vector Code 256) (g : ReadGroup)
    (l : List (ChipConf × Nat)) (u : SchedUnit) (p : Ports) :
    let q := readChips k t g l u p
    q.1.length = l.length ∧ q.2.1.grp = u.grp ∧ q.2.1.cycle = u.cycle ∧
      q.2.1.chips.length = u.chips.length ∧ (∀ d, (q.2.1.chip d).cfg = (u.chip d).cfg) ∧
      (∀ d h, (∀ x ∈ l, x.2 ≠ d) ∨ h ≠ g → q.2.1.pair d h = u.pair d h) := by
  induction l generalizing u p with
  | nil => simp [readChips]
  | cons x rest ih =>
    have hf := readChip_frame k t g x.1 x.2 u p
    have hi := ih (readChip k t g x.1 x.2 u p).2.1 (readChip k t g x.1 x.2 u p).2.2
    simp only [readChips_cons] at hf hi ⊢
    refine ⟨by simp [hi.1], hi.2.1.trans hf.1, hi.2.2.1.trans hf.2.1, hi.2.2.2.1.trans hf.2.2.1,
      fun d => (hi.2.2.2.2.1 d).trans (hf.2.2.2.1 d), fun d h hx => ?_⟩
    rw [hi.2.2.2.2.2 d h (hx.imp (fun hx y hy => hx y (List.mem_cons_of_mem _ hy)) id),
      hf.2.2.2.2 d h (hx.imp (fun hx => (hx x List.mem_cons_self).symm) id)]

theorem readChips_csLow {p : Ports} (hp : p.csLow = []) (k : Config) (t : Vector Code 256) (g : ReadGroup)
    (l : List (ChipConf × Nat)) (u : SchedUnit) : (readChips k t g l u p).2.2.csLow = [] := by
  induction l generalizing u p with
  | nil => exact hp
  | cons x rest ih => rw [readChips_cons]; exact ih (readChip_csLow hp k t g x.1 x.2 u) _

/-! ### The pre-step -/

theorem writeGroup_high {p : Ports} (h : p.csLow = []) (t : Vector Code 256) (ch : ChipConf)
    (cc : BitVec 11) (d : Six) :
    writeGroup t ch cc d p = afterWindow ch.csLine (cmd4 t ch.addr cc ++ pecAppend t d.toList) p := by
  simp [writeGroup, busWindow_high h]

theorem foldl_csLow {α : Type} (f : Ports → α → Ports) (hf : ∀ p x, p.csLow = [] → (f p x).csLow = [])
    (l : List α) (p : Ports) (hp : p.csLow = []) : (l.foldl f p).csLow = [] := by
  induction l generalizing p with
  | nil => exact hp
  | cons x rest ih => exact ih _ (hf p x hp)

theorem preStep_csLow {p : Ports} (hp : p.csLow = []) (k : Config) (t : Vector Code 256)
    (u : SchedUnit) : (preStep k t u p).csLow = [] := by
  refine foldl_csLow _ (fun q x hq => ?_) _ _ (foldl_csLow _ (fun q x hq => ?_) _ _ hp)
  · simp [writeConfig, writeGroup_high hq, afterWindow, hq]
  · obtain ⟨now, -, hw⟩ := wakeLine_high hq k.txFill x
    rw [hw]; exact hq

/-- The body of `SCHED.NEXT` changes the scheduler and the ports only, and advances `GRP` by one. -/
theorem schedRound_frame (g : ReadGroup) (s : State) :
    (schedRound g s).2 = { s with sched := (schedRound g s).2.sched, ports := (schedRound g s).2.ports } ∧
      (schedRound g s).2.sched.grp = groupBits (nextGroup g) ∧
      (schedRound g s).2.sched.cycle = (if g = .auxB then s.sched.cycle + 1 else s.sched.cycle) ∧
      (schedRound g s).2.sched.chips.length = s.sched.chips.length := by
  have h := fun p => readChips_frame s.conf s.pec.table g (numberedChips s.conf) s.sched p
  refine ⟨rfl, rfl, ?_, ?_⟩
  · simp only [schedRound, advance]
    rw [(h _).2.2.1]
  · exact (h _).2.2.2.1

theorem numberedChips_length (k : Config) : (numberedChips k).length = k.nChips := by
  simp [numberedChips, Config.nChips]

theorem mem_numberedChips {k : Config} {x : ChipConf × Nat} (h : x ∈ numberedChips k) :
    k.chips[x.2]? = some x.1 := by
  obtain ⟨ch, c⟩ := x
  exact List.mem_zipIdx_iff_getElem?.mp h

end Sys2Proof.Machine
end

