-- ==== Sys2Proof/Laws/Supervisor.lean ====
section
/-! SUPPORT. What the supervisor's actions and transitions can do, once each. -/

namespace Sys2Proof.Machine

/-- Entry to `FAULTED` (47_acu_fsm R309, R310; 60_exceptions R348). -/
theorem enterFaulted_eq (now : Nat) (s : State) (h : s.fsm.state ≠ .faulted) :
    enterFaulted now s =
      { s with
        ctl := { s.ctl with chgEn := if s.fsm.state = .charging then false else s.ctl.chgEn }
        fsm := { s.fsm with state := .faulted, wdArmed := false, latchOut := true, faultEntry := now }
        ports := s.ports.emit (.latchEn true) } := by
  obtain ⟨_, _, _, _, _, _, _, _, _, _, _, _, ⟨st, _, _, _, _⟩⟩ := s
  cases st <;> first | rfl | exact absurd rfl h

/-- Exit from `FAULTED` (47_acu_fsm R311; 60_exceptions R351). -/
theorem leaveFaulted_eq (now : Nat) (s : State) (h : s.fsm.state = .faulted) :
    leaveFaulted now s =
      { s with
        fsm := { s.fsm with state := .startup, wdArmed := true, latchOut := false }
        ports := s.ports.emit (.latchEn false) } := by
  obtain ⟨_, _, _, _, _, _, _, _, _, _, _, _, ⟨st, _, _, _, _⟩⟩ := s
  cases h; rfl

/-- A transition between states other than `FAULTED`: `CHG_EN` and the watchdog. -/
theorem moveTo_eq (n : AcuState) (now : Nat) (s : State) (h : s.fsm.state ≠ .faulted) (hn : n ≠ .faulted) :
    moveTo n now s =
      { s with
        ctl := { s.ctl with chgEn :=
          if n = .charging then true
          else if s.fsm.state = .charging then false else s.ctl.chgEn }
        fsm := { s.fsm with state := n, wdArmed := if n = .startup then true else s.fsm.wdArmed } } := by
  obtain ⟨_, _, _, _, _, _, _, _, _, _, _, _, ⟨st, _, _, _, _⟩⟩ := s
  cases st <;> cases n <;> first | rfl | exact absurd rfl h | exact absurd rfl hn

/-- The self-loop of `FAULTED` can only arm the watchdog. -/
theorem selfLoop_eq (now : Nat) (b : Bool) (s : State) :
    applyActions (selfLoopActions now b s.fsm) s =
      if now - s.fsm.faultEntry > tFaultedNudgeMs ∧ b = false then s.setWdArmed true else s := by
  unfold selfLoopActions
  by_cases h1 : now - s.fsm.faultEntry > tFaultedNudgeMs <;> cases b <;>
    simp [h1, applyActions, applyAction]

/-- The only state from which a tick enters `STARTUP` with an exit action of `FAULTED` is `FAULTED`, and
it leaves to no other state (47_acu_fsm R305). -/
theorem nextAcuState_of_faulted (a b c : Bool) :
    nextAcuState .faulted a b c = if a && !c then .startup else .faulted := rfl

/-- Whatever a tick does, it changes only the supervisor, `CHG_EN` and the ports. -/
theorem applyAction_frame (a : Action) (s : State) :
    applyAction a s = { s with ctl := { s.ctl with chgEn := (applyAction a s).ctl.chgEn }
                               fsm := (applyAction a s).fsm, ports := (applyAction a s).ports } := by
  cases a <;> rfl

/-- The answer of a supervisor tick that is not refused for its time (47_acu_fsm R301). -/
theorem execFsmAdvance_of_time {s : State} {now : Nat} (a b c d : Bool)
    (h : ¬ (s.fsm.state = .faulted ∧ now < s.fsm.faultEntry)) :
    execFsmAdvance now a b c d s =
      .next (finish
        (.advanced (nextAcuState s.fsm.state a b (c || d))
          (tickActions (nextAcuState s.fsm.state a b (c || d)) now c s.fsm))
        (tickState (nextAcuState s.fsm.state a b (c || d)) now c s)) := by
  have hr : require (!(s.fsm.state == .faulted && decide (now < s.fsm.faultEntry)))
      .timeWentBackwards = .ok () := by
    have : (s.fsm.state == .faulted && decide (now < s.fsm.faultEntry)) = false := by
      rw [Bool.and_eq_false_iff]
      by_cases hs : s.fsm.state = .faulted
      · right; simp only [decide_eq_false_iff_not]; exact fun hn => h ⟨hs, hn⟩
      · left; simpa using hs
    rw [this]; rfl
  simp only [execFsmAdvance, hr, except_ok_bind, except_pure, conclude_ok]

end Sys2Proof.Machine
end

