-- ==== Sys2Proof/Laws/Exec.lean ====
section
/-! SUPPORT. What `exec` and `step` can do, said once. -/

namespace Sys2Proof.Machine

/-- Every meaning concludes an answer: it is done or refused in a next state. -/
theorem exec_concludes (i : Instr) (s : State) : ∃ a : Answer, exec i s = conclude s a := by
  cases i <;> first | exact ⟨_, rfl⟩ | exact ⟨.ok (_, _), rfl⟩

/-- The three things a step can be: idling, running the decoded instruction, refusing a request. -/
theorem step_cases (s : State) :
    (s.reqs = [] ∧ step s = .next (redrawOkOut s)) ∨
    (∃ r rest i, s.reqs = r :: rest ∧ decode s.conf.codes r = .ok i ∧
      step s = exec i (fetched rest s)) ∨
    (∃ r rest why, s.reqs = r :: rest ∧ decode s.conf.codes r = .error why ∧
      step s = .next (refuse (.unknownRequest why) (fetched rest s))) := by
  unfold step
  split
  · rename_i h; exact .inl ⟨h, rfl⟩
  · rename_i r rest h
    split
    · rename_i i hd; exact .inr (.inl ⟨r, rest, i, h, hd, rfl⟩)
    · rename_i why hd; exact .inr (.inr ⟨r, rest, why, h, hd, rfl⟩)

end Sys2Proof.Machine
end

