-- ==== Sys2Proof/Laws/PerInstr.lean ====
section
/-! SUPPORT. Facts about each instruction as syntax, one lemma per constructor. -/

namespace Sys2Proof.Laws

/-- The `OPSEL` row of a request (30_encoding R108), or `none` for a frame. -/
def opselOf : Request → Option Byte
  | .op opsel _ => some opsel
  | .wire _ _ _ => none

/-- Byte 0 of a frame (30_encoding R91), or `none` for a host operation. -/
def frameByte0 : Request → Option Byte
  | .op _ _ => none
  | .wire b0 _ _ => some b0

/-- The `OPSEL` that 30_encoding R108 gives an operation, `none` for a wire command. -/
def rowOpsel : Instr → Option Byte
  | .pecBuild => some 0x01#8
  | .pecCompute _ => some 0x02#8
  | .pecCheck _ _ _ => some 0x03#8
  | .codecCmd _ _ => some 0x10#8
  | .codecCfgpack _ => some 0x11#8
  | .codecCfgunpack _ => some 0x12#8
  | .codecGrpunpack _ => some 0x13#8
  | .codecCmpv _ _ => some 0x14#8
  | .codecBtemp _ => some 0x15#8
  | .codecHumid _ => some 0x16#8
  | .codecTherm _ => some 0x17#8
  | .spiWakeup _ => some 0x20#8
  | .spiWrreg _ _ _ => some 0x21#8
  | .spiRdreg _ _ => some 0x22#8
  | .spiAdcstart _ _ _ => some 0x23#8
  | .schedSetcfg _ _ => some 0x30#8
  | .schedNext => some 0x31#8
  | .schedFaultdata => some 0x32#8
  | .ctlInit _ _ => some 0x40#8
  | .ctlSetchg _ => some 0x41#8
  | .ctlEvaluate _ _ _ => some 0x42#8
  | .latchUpdate _ _ _ => some 0x50#8
  | .latchClear => some 0x51#8
  | .latchRead => some 0x52#8
  | .fsmAdvance _ _ _ _ _ => some 0x60#8
  | .wdKick => some 0x61#8
  | .wrcfg _ _ => none
  | .rdcva _ _ => none
  | .rdcvb _ _ => none
  | .rdcvc _ _ => none
  | .rdcvd _ _ => none
  | .rdauxa _ _ => none
  | .rdauxb _ _ => none
  | .adc _ _ _ _ => none

/-- The request of an instruction is in its row's form: a host operation carries the row's `OPSEL`, a
wire command is a frame with bit 7 of byte 0 set. -/
def RowForm.Statement (i : Instr) : Prop :=
  ∀ k : CmdCodes, opselOf (encode k i) = rowOpsel i ∧
    ∀ b, frameByte0 (encode k i) = some b → b.getLsbD 7 = true

theorem frameBytes_addressed (addr : BitVec 4) (cc : BitVec 11) :
    (frameBytes addr cc).1.getLsbD 7 = true := by
  change ((1#1 ++ addr : BitVec (1 + 4)) ++ cc.extractLsb' 8 3 : BitVec (1 + 4 + 3)).getLsbD 7 = true
  rw [BitVec.getLsbD_append, BitVec.getLsbD_append]
  rfl

theorem RowForm.pecBuild :
    RowForm.Statement (.pecBuild) :=
  fun _ => ⟨rfl, by simp [frameByte0, encode]⟩

theorem RowForm.pecCompute (data : List Byte) :
    RowForm.Statement (.pecCompute data) :=
  fun _ => ⟨rfl, by simp [frameByte0, encode]⟩

theorem RowForm.pecCheck (data : List Byte) (rx0 rx1 : Byte) :
    RowForm.Statement (.pecCheck data rx0 rx1) :=
  fun _ => ⟨rfl, by simp [frameByte0, encode]⟩

theorem RowForm.codecCmd (addr cc : Nat) :
    RowForm.Statement (.codecCmd addr cc) :=
  fun _ => ⟨rfl, by simp [frameByte0, encode]⟩

theorem RowForm.codecCfgpack (f : CfgArg) :
    RowForm.Statement (.codecCfgpack f) :=
  fun _ => ⟨rfl, by simp [frameByte0, encode]⟩

theorem RowForm.codecCfgunpack (data : List Byte) :
    RowForm.Statement (.codecCfgunpack data) :=
  fun _ => ⟨rfl, by simp [frameByte0, encode]⟩

theorem RowForm.codecGrpunpack (data : List Byte) :
    RowForm.Statement (.codecGrpunpack data) :=
  fun _ => ⟨rfl, by simp [frameByte0, encode]⟩

theorem RowForm.codecCmpv (vuv vov : Nat) :
    RowForm.Statement (.codecCmpv vuv vov) :=
  fun _ => ⟨rfl, by simp [frameByte0, encode]⟩

theorem RowForm.codecBtemp (code : Code) :
    RowForm.Statement (.codecBtemp code) :=
  fun _ => ⟨rfl, by simp [frameByte0, encode]⟩

theorem RowForm.codecHumid (code : Code) :
    RowForm.Statement (.codecHumid code) :=
  fun _ => ⟨rfl, by simp [frameByte0, encode]⟩

theorem RowForm.codecTherm (code : Code) :
    RowForm.Statement (.codecTherm code) :=
  fun _ => ⟨rfl, by simp [frameByte0, encode]⟩

theorem RowForm.spiWakeup (line : Nat) :
    RowForm.Statement (.spiWakeup line) :=
  fun _ => ⟨rfl, by simp [frameByte0, encode]⟩

theorem RowForm.spiWrreg (c cc : Nat) (data : List Byte) :
    RowForm.Statement (.spiWrreg c cc data) :=
  fun _ => ⟨rfl, by simp [frameByte0, encode]⟩

theorem RowForm.spiRdreg (c cc : Nat) :
    RowForm.Statement (.spiRdreg c cc) :=
  fun _ => ⟨rfl, by simp [frameByte0, encode]⟩

theorem RowForm.spiAdcstart (c : Nat) (kind : AdcKind) (mode : Nat) :
    RowForm.Statement (.spiAdcstart c kind mode) :=
  fun _ => ⟨rfl, by simp [frameByte0, encode]⟩

theorem RowForm.schedSetcfg (c : Nat) (f : CfgArg) :
    RowForm.Statement (.schedSetcfg c f) :=
  fun _ => ⟨rfl, by simp [frameByte0, encode]⟩

theorem RowForm.schedNext :
    RowForm.Statement (.schedNext) :=
  fun _ => ⟨rfl, by simp [frameByte0, encode]⟩

theorem RowForm.schedFaultdata :
    RowForm.Statement (.schedFaultdata) :=
  fun _ => ⟨rfl, by simp [frameByte0, encode]⟩

theorem RowForm.ctlInit (now : Nat) (cfgOk : Bool) :
    RowForm.Statement (.ctlInit now cfgOk) :=
  fun _ => ⟨rfl, by simp [frameByte0, encode]⟩

theorem RowForm.ctlSetchg (en : Bool) :
    RowForm.Statement (.ctlSetchg en) :=
  fun _ => ⟨rfl, by simp [frameByte0, encode]⟩

theorem RowForm.ctlEvaluate (snap : Snapshot) (now : Nat) (packCurrent : Rat) :
    RowForm.Statement (.ctlEvaluate snap now packCurrent) :=
  fun _ => ⟨rfl, by simp [frameByte0, encode]⟩

theorem RowForm.latchUpdate (imdOk bmsOk shdnValid : Bool) :
    RowForm.Statement (.latchUpdate imdOk bmsOk shdnValid) :=
  fun _ => ⟨rfl, by simp [frameByte0, encode]⟩

theorem RowForm.latchClear :
    RowForm.Statement (.latchClear) :=
  fun _ => ⟨rfl, by simp [frameByte0, encode]⟩

theorem RowForm.latchRead :
    RowForm.Statement (.latchRead) :=
  fun _ => ⟨rfl, by simp [frameByte0, encode]⟩

theorem RowForm.fsmAdvance (now : Nat) (shdnValid chargeReq bmsFault imdFault : Bool) :
    RowForm.Statement (.fsmAdvance now shdnValid chargeReq bmsFault imdFault) :=
  fun _ => ⟨rfl, by simp [frameByte0, encode]⟩

theorem RowForm.wdKick :
    RowForm.Statement (.wdKick) :=
  fun _ => ⟨rfl, by simp [frameByte0, encode]⟩

theorem RowForm.wrcfg (line : Nat) (addr : BitVec 4) :
    RowForm.Statement (.wrcfg line addr) :=
  fun _ => ⟨rfl, by rintro _ ⟨⟩; exact frameBytes_addressed _ _⟩

theorem RowForm.rdcva (line : Nat) (addr : BitVec 4) :
    RowForm.Statement (.rdcva line addr) :=
  fun _ => ⟨rfl, by rintro _ ⟨⟩; exact frameBytes_addressed _ _⟩

theorem RowForm.rdcvb (line : Nat) (addr : BitVec 4) :
    RowForm.Statement (.rdcvb line addr) :=
  fun _ => ⟨rfl, by rintro _ ⟨⟩; exact frameBytes_addressed _ _⟩

theorem RowForm.rdcvc (line : Nat) (addr : BitVec 4) :
    RowForm.Statement (.rdcvc line addr) :=
  fun _ => ⟨rfl, by rintro _ ⟨⟩; exact frameBytes_addressed _ _⟩

theorem RowForm.rdcvd (line : Nat) (addr : BitVec 4) :
    RowForm.Statement (.rdcvd line addr) :=
  fun _ => ⟨rfl, by rintro _ ⟨⟩; exact frameBytes_addressed _ _⟩

theorem RowForm.rdauxa (line : Nat) (addr : BitVec 4) :
    RowForm.Statement (.rdauxa line addr) :=
  fun _ => ⟨rfl, by rintro _ ⟨⟩; exact frameBytes_addressed _ _⟩

theorem RowForm.rdauxb (line : Nat) (addr : BitVec 4) :
    RowForm.Statement (.rdauxb line addr) :=
  fun _ => ⟨rfl, by rintro _ ⟨⟩; exact frameBytes_addressed _ _⟩

theorem RowForm.adc (line : Nat) (addr : BitVec 4) (kind : AdcKind) (mode : BitVec 2) :
    RowForm.Statement (.adc line addr kind mode) :=
  fun _ => ⟨rfl, by rintro _ ⟨⟩; exact frameBytes_addressed _ _⟩

end Sys2Proof.Laws
end

