-- ==== Sys2Proof/Certificates/Slice0/Obligations.lean ====
section
/-! DEFINITION. The statements for the provers. Each docstring names the rule or section of spec/ it
formalises; where a statement rests on a choice of the model, the log entry is named. -/

open Sys2Proof Sys2Proof.Machine Sys2Proof.Safety

/-! ### Encoding and the step -/

/-- For every configuration whose command codes are pairwise different, decoding the request of a
well-formed instruction gives the instruction back, with every operand. The operand block is the model's
(entry 2). -/
def Obligations.DecodeInvertsEncode : Prop :=
  ∀ (k : Config) (i : Instr), k.codes.distinct = true → i.wf k = true →
    decode k.codes (encode k.codes i) = .ok i

/-- A few opcode-table words decode to the instructions they stand for (30_encoding R91, R108). The model's
choices in it: the operands of zeros and line 0 (entry 2), the default command codes of 93 G1 (entry 7), and
that 0x8000, command code 0, is no command (entry 20). -/
def Obligations.TableWordsDecode : Prop :=
  decodeTableWord 8 0x01 = some .pecBuild ∧ decodeTableWord 8 0x14 = some (.codecCmpv 0 0) ∧
  decodeTableWord 8 0x22 = some (.spiRdreg 0 0) ∧ decodeTableWord 8 0x31 = some .schedNext ∧
  decodeTableWord 8 0x40 = some (.ctlInit 0 false) ∧ decodeTableWord 8 0x51 = some .latchClear ∧
  decodeTableWord 8 0x61 = some .wdKick ∧ decodeTableWord 8 0x7F = none ∧
  decodeTableWord 16 0x9001 = some (.wrcfg 0 2#4) ∧ decodeTableWord 16 0x9804 = some (.rdcva 0 3#4) ∧
  decodeTableWord 16 0xF80E = some (.rdauxb 0 15#4) ∧
  decodeTableWord 16 0x8B60 = some (.adc 0 1#4 .cell 2#2) ∧
  decodeTableWord 16 0x8000 = none ∧ decodeTableWord 16 0x1804 = none

/-- When the first pending request decodes to `i`, the step is `i` executed in the state in which that
request is gone and port `OK_OUT` has taken a free value. With no request pending the block executes nothing:
only that port and the draw counter change (70_reset R383). The request list and the free value of the port
are the model's (entries 1, 12). -/
def Obligations.StepRunsDecodedRequest : Prop :=
  (∀ (s : State) (r : Request) (rest : List Request) (i : Instr),
    s.reqs = r :: rest → decode s.conf.codes r = .ok i →
    step s = exec i { s with reqs := rest, okOut := Config.freeOkOut s.draws, draws := s.draws + 1 }) ∧
  (∀ s : State, s.reqs = [] →
    step s = .next { s with okOut := Config.freeOkOut s.draws, draws := s.draws + 1 })

/-- A request that names no operation is refused, and no register of the block changes: an `OPSEL` that is
none of the 26 of 30_encoding R108 (R119 (c)), a frame with bit 7 of byte 0 clear, and a frame whose command
code is none of the fifteen configured ones. That the two frames, handed in as requests, are refused is the
model's reading (entry 20): R119 (a) says only that the block never produces the first. That the request list
loses the request and port `OK_OUT` and the draw counter move are the model's too (entries 1, 12). -/
def Obligations.UnknownRequestRefused : Prop :=
  ∀ (s : State) (rest : List Request),
    let refusedFor := fun (why : DecodeReject) => Host.Outcome.next
      { s with
        reqs := rest, okOut := Config.freeOkOut s.draws, draws := s.draws + 1, refusalMark := true,
        outcomes := s.outcomes ++ [.refused (.unknownRequest why)] }
    (∀ (opsel : Byte) (o : Operands), s.reqs = .op opsel o :: rest →
      opsel.toNat ∉ [0x01, 0x02, 0x03, 0x10, 0x11, 0x12, 0x13, 0x14, 0x15, 0x16, 0x17, 0x20, 0x21, 0x22,
        0x23, 0x30, 0x31, 0x32, 0x40, 0x41, 0x42, 0x50, 0x51, 0x52, 0x60, 0x61] →
      step s = refusedFor (.unknownOpsel opsel)) ∧
    (∀ (b0 b1 : Byte) (line : Nat), s.reqs = .wire b0 b1 line :: rest → b0.toNat < 128 →
      step s = refusedFor (.notAddressed b0)) ∧
    (∀ (b0 b1 : Byte) (line : Nat) (cc : BitVec 11), s.reqs = .wire b0 b1 line :: rest →
      128 ≤ b0.toNat → cc.toNat = b0.toNat % 8 * 256 + b1.toNat →
      cc ≠ s.conf.codes.wrcfg → (∀ g, cc ≠ s.conf.codes.rd.get g) →
      (∀ kind mode, cc ≠ s.conf.codes.adc kind mode) →
      step s = refusedFor (.unknownCommand cc))

/-- Every operation is done, with its result recorded, or refused, with nothing of the state changed but
the recorded refusal and the sticky mark; and no step ever stops the block (00_scope R13, 60_exceptions
R340). -/
def Obligations.DoneOrRefused : Prop :=
  (∀ s : State, ∃ t, step s = .next t) ∧ ∀ (i : Instr) (s : State),
    (∃ (r : Result) (t : State), t.outcomes = s.outcomes ∧ t.refusalMark = s.refusalMark ∧
      exec i s = .next { t with outcomes := s.outcomes ++ [.done r] }) ∨
    (∃ why : RefusalReason, exec i s = .next
      { s with outcomes := s.outcomes ++ [.refused why], refusalMark := true })

/-- No step changes the topology, the controller configuration or any other parameter (20_memory R73
(b)), and a step uses up exactly the first pending request. The request list is the model's (entry 1). -/
def Obligations.ConfigNeverChanges : Prop :=
  ∀ s t : State, step s = .next t → t.conf = s.conf ∧ t.reqs = s.reqs.tail

/-- Each state element is written by the operations of its owning unit only; the one write that crosses
units is `CHG_EN`, written by U7 (10_state R21). A wire command is a bus transaction: of these registers it
writes `ADC_READY_AT` alone (entry 19). -/
def Obligations.OnlyOwnerWrites : Prop :=
  ∀ (i : Instr) (s t : State), exec i s = .next t →
    (unitOf i ≠ .u1 → t.pec = s.pec) ∧
    (unitOf i ≠ .u3 → unitOf i ≠ .wire → t.adcReadyAt = s.adcReadyAt) ∧
    (unitOf i ≠ .u4 → t.sched = s.sched) ∧
    (unitOf i ≠ .u5 → unitOf i ≠ .u7 → t.ctl = s.ctl) ∧
    (unitOf i = .u7 → t.ctl = { s.ctl with chgEn := t.ctl.chgEn }) ∧
    (unitOf i ≠ .u6 → t.latch = s.latch) ∧
    (unitOf i ≠ .u7 → t.fsm = s.fsm) ∧
    (unitOf i = .u1 ∨ unitOf i = .u2 ∨ unitOf i = .u5 ∨ unitOf i = .u6 → t.ports = s.ports)

/-- Before `PEC.BUILD` every operation that computes a PEC is refused, nothing is sent and nothing
changes (70_reset R395, 60_exceptions R344). That a wire command alone is refused so too, also one for a
group the chip skips, is the model's choice (entry 19). -/
def Obligations.RefusedBeforeBuild : Prop :=
  ∀ s : State, s.pec.tableValid = false → ∀ i : Instr,
    ((∃ d, i = .pecCompute d) ∨ (∃ d a b, i = .pecCheck d a b) ∨ (∃ c cc d, i = .spiWrreg c cc d) ∨
      (∃ c cc, i = .spiRdreg c cc) ∨ (∃ c k m, i = .spiAdcstart c k m) ∨ i = .schedNext ∨
      unitOf i = .wire) →
    exec i s = .next { s with outcomes := s.outcomes ++ [.refused .tableNotBuilt], refusalMark := true }

/-- An operand outside its range refuses the operation with the reason of 60_exceptions R344, and changes
nothing. For a wire command the operand is the chip selected (entry 19); the operand of `CTL.EVALUATE` is
in `EvaluateRefusals`. -/
def Obligations.OperandsOutOfRangeRefused : Prop :=
  ∀ s : State, s.pec.tableValid = true → ∀ i : Instr, i.wf s.conf = false →
    ((∃ addr cc, i = .codecCmd addr cc) ∨ (∃ f, i = .codecCfgpack f) →
      exec i s = .next (refuse .fieldOutOfRange s)) ∧
    ((∃ line, i = .spiWakeup line) → exec i s = .next (refuse .badLine s)) ∧
    (unitOf i = .wire ∨ (∃ d, i = .codecCfgunpack d) ∨ (∃ d, i = .codecGrpunpack d) ∨
        (∃ u o, i = .codecCmpv u o) ∨ (∃ c cc d, i = .spiWrreg c cc d) ∨
        (∃ c cc, i = .spiRdreg c cc) ∨ (∃ c k m, i = .spiAdcstart c k m) ∨
        (∃ c f, i = .schedSetcfg c f) →
      exec i s = .next (refuse .badOperand s))

/-- When `CTL.EVALUATE` is refused: before `CTL.INIT`, with time running backwards (44_fault_comparator
R234, R249), with a divisor that 93 U17 excludes while `CFG_OK` is true (entry 22), and with a snapshot that
does not list every cell (entry 21). In every other case it is done, with `CFG_OK` false whatever the
parameters, and then `HAS_FAULT` is true and `BMS_OK` false (R247). -/
def Obligations.EvaluateRefusals : Prop :=
  ∀ (s : State) (snap : Snapshot) (now : Nat) (cur : Rat),
    let excluded := s.conf.ctl.irCellCount = 0 ∨ s.conf.ctl.capacityAh ≤ 0
    (s.ctl.ready = false → exec (.ctlEvaluate snap now cur) s = .next (refuse .notInitialised s)) ∧
    (s.ctl.ready = true → now < s.ctl.lastEval →
      exec (.ctlEvaluate snap now cur) s = .next (refuse .timeWentBackwards s)) ∧
    (s.ctl.ready = true → s.ctl.lastEval ≤ now → s.ctl.cfgOk = true → excluded →
      exec (.ctlEvaluate snap now cur) s = .next (refuse .parameterExcluded s)) ∧
    (s.ctl.ready = true → s.ctl.lastEval ≤ now → s.ctl.cfgOk = false ∨ ¬ excluded →
      snap.cellV.length ≠ s.conf.nCellsTotal →
      exec (.ctlEvaluate snap now cur) s = .next (refuse .badOperand s)) ∧
    (s.ctl.ready = true → s.ctl.lastEval ≤ now → s.ctl.cfgOk = false ∨ ¬ excluded →
      snap.cellV.length = s.conf.nCellsTotal → ∃ (st : ControllerStatus) (u : CtlUnit),
        exec (.ctlEvaluate snap now cur) s = .next (finish (.status st) { s with ctl := u }) ∧
        (s.ctl.cfgOk = false → u.hasFault = true ∧ u.bmsOk = false))

/-- `FSM.ADVANCE` in `FAULTED` before the entry time is refused and changes nothing (47_acu_fsm R301). -/
def Obligations.AdvanceRefusesTimeBackwards : Prop :=
  ∀ (s : State) (now : Nat) (shdnValid chargeReq bmsFault imdFault : Bool),
    s.fsm.state = .faulted → now < s.fsm.faultEntry →
    exec (.fsmAdvance now shdnValid chargeReq bmsFault imdFault) s =
      .next (refuse .timeWentBackwards s)

/-! ### Unit U1: the PEC engine -/

/-- `PEC.BUILD` writes the 256 entries, each eight shift steps from `b << 7`, sets `TABLE_VALID`, and
changes nothing else (40_pec R131). -/
def Obligations.PecBuildWritesTable : Prop :=
  ∀ s : State, ∃ T : Vector Code 256,
    (∀ b (h : b < 256), T[b] = (List.range 8).foldl
      (fun r _ => if r.getLsbD 14 then (r <<< 1) ^^^ 0x4599#16 else r <<< 1) (BitVec.ofNat 16 b <<< 7)) ∧
    exec .pecBuild s = .next (finish .none { s with pec := { table := T, tableValid := true } })

/-- `PEC.COMPUTE` runs the table-driven remainder from seed 16 over the bytes, doubles it and answers it
high byte first; it changes no state (40_pec R132). Refused when the table is not built. -/
def Obligations.PecComputeFollowsTable : Prop :=
  ∀ (s : State) (data : List Byte),
    let rem := data.foldl (fun (r : Code) (d : Byte) =>
      (r <<< 8) ^^^ s.pec.table.toList.getD (((r >>> 7) ^^^ d.setWidth 16) &&& 0xFF#16).toNat 0) 16#16
    let p := 2 * rem.toNat % 65536
    exec (.pecCompute data) s = .next
      (if s.pec.tableValid then
        finish (.bytes [BitVec.ofNat 8 (p / 256), BitVec.ofNat 8 (p % 256)]) s
       else refuse .tableNotBuilt s)

/-- With the built table, `PEC.COMPUTE` answers the bit-serial CRC of its data (40_pec R137, which the
spec marks as derived). -/
def Obligations.PecComputeIsBitSerial : Prop :=
  ∀ (s : State) (data : List Byte), tableSound s → s.pec.tableValid = true →
    exec (.pecCompute data) s = .next (finish (.bytes (serialPec data)) s)

/-- `PEC.CHECK` answers true exactly when both received bytes equal the two bytes `PEC.COMPUTE` answers
on the same data, and changes no state; refused when the table is not built (40_pec R133). -/
def Obligations.PecCheckNeedsBothBytes : Prop :=
  ∀ (s : State) (data : List Byte) (rx0 rx1 : Byte),
    (s.pec.tableValid = true → ∃ (p0 p1 : Byte) (v : Bool),
      exec (.pecCompute data) s = .next (finish (.bytes [p0, p1]) s) ∧
      exec (.pecCheck data rx0 rx1) s = .next (finish (.verdict v) s) ∧
      (v = true ↔ p0 = rx0 ∧ p1 = rx1)) ∧
    (s.pec.tableValid = false →
      exec (.pecCheck data rx0 rx1) s = .next (refuse .tableNotBuilt s))

/-- The PEC of data followed by its own PEC is zero; and the PEC of an exclusive-or of two equal-length
sequences is the exclusive-or of their PECs and that of the zero sequence (40_pec R138 (a), (b), derived
by the spec). -/
def Obligations.PecAlgebra : Prop :=
  (∀ d : List Byte, pecBytes pecTable (d ++ pecBytes pecTable d) = [0x00#8, 0x00#8]) ∧
  ∀ a b : List Byte, a.length = b.length →
    pecBytes pecTable (List.zipWith (· ^^^ ·) a b) =
      List.zipWith (· ^^^ ·) (List.zipWith (· ^^^ ·) (pecBytes pecTable a) (pecBytes pecTable b))
        (pecBytes pecTable (List.replicate a.length 0x00#8))

/-- Flipping any one bit of the 64 bits of a 6-byte group and its PEC makes the check of a register read
fail (40_pec R138 (c), derived by the spec). -/
def Obligations.SingleBitFlipRejected : Prop :=
  ∀ (d : Six) (j b : Nat), j < 8 → b < 8 →
    let m := d.toList ++ pecBytes pecTable d.toList
    (checkGroup pecTable m).2 = true ∧
    (checkGroup pecTable (m.set j (m.getD j 0x00#8 ^^^ (1#8 <<< b)))).2 = false

/-! ### Unit U2: the codec -/

/-- `CODEC.CMD` answers `[0x80 | (addr << 3) | cc[10:8], cc[7:0]]`, is refused on an out-of-range operand,
and changes no state (41_codec R151, 30_encoding R91). -/
def Obligations.CodecCmdBytes : Prop :=
  ∀ (s : State) (addr cc : Nat),
    exec (.codecCmd addr cc) s = .next
      (if addr < 16 ∧ cc < 2048 then
        finish (.bytes [BitVec.ofNat 8 (0x80 + addr * 8 + cc / 256), BitVec.ofNat 8 (cc % 256)]) s
       else refuse .fieldOutOfRange s)

/-- `CODEC.CFGPACK` in the layout of 30_encoding R99 to R103 puts every field at its place in the six bytes,
the reserved bit 0; refused, in any layout, when a field exceeds its range (41_codec R152). The layout is the
family's (entry 8). -/
def Obligations.CfgPackBytes : Prop :=
  ∀ (s : State) (f : CfgArg),
    (s.conf.layout = defaultLayout → f.inRange = true → ∃ d : Six,
      exec (.codecCfgpack f) s = .next (finish (.bytes d.toList) s) ∧
      d.d0.toNat = f.gpioEnable * 8 + f.refon * 4 + f.adcopt ∧
      d.d1.toNat = f.vuv % 256 ∧
      d.d2.toNat = f.vov % 16 * 16 + f.vuv / 256 ∧
      d.d3.toNat = f.vov / 16 ∧
      d.d4.toNat = f.dcc % 256 ∧
      d.d5.toNat = f.dcto * 16 + f.dcc / 256) ∧
    (f.inRange = false → exec (.codecCfgpack f) s = .next (refuse .fieldOutOfRange s))

/-- `CODEC.CFGUNPACK` in the layout of 30_encoding R99 to R103 reads every field from its place, bit 1 of
byte 0 ignored; in every layout that keeps each field's width and bytes (R98) it gives back the fields that
`CODEC.CFGPACK` packed; refused when the argument is not six bytes (41_codec R153). The layout is the family's,
and a parameter (entry 8). -/
def Obligations.CfgUnpackFields : Prop :=
  (∀ (s : State) (d : Six), s.conf.layout = defaultLayout → ∃ f : CfgFields,
    exec (.codecCfgunpack d.toList) s = .next (finish (.fields f) s) ∧
    f.gpioEnable.toNat = d.d0.toNat / 8 ∧ f.refon.toNat = d.d0.toNat / 4 % 2 ∧
    f.adcopt.toNat = d.d0.toNat % 2 ∧
    f.vuv.toNat = d.d2.toNat % 16 * 256 + d.d1.toNat ∧
    f.vov.toNat = d.d3.toNat * 16 + d.d2.toNat / 16 ∧
    f.dcc.toNat = d.d5.toNat % 16 * 256 + d.d4.toNat ∧
    f.dcto.toNat = d.d5.toNat / 16) ∧
  (∀ (s : State) (f : CfgArg), s.conf.layout.valid = true → f.inRange = true →
    ∃ (d : Six) (u : CfgFields),
      exec (.codecCfgpack f) s = .next (finish (.bytes d.toList) s) ∧
      exec (.codecCfgunpack d.toList) s = .next (finish (.fields u) s) ∧
      u.gpioEnable.toNat = f.gpioEnable ∧ u.refon.toNat = f.refon ∧ u.adcopt.toNat = f.adcopt ∧
      u.vuv.toNat = f.vuv ∧ u.vov.toNat = f.vov ∧ u.dcc.toNat = f.dcc ∧ u.dcto.toNat = f.dcto) ∧
  (∀ (s : State) (l : List Byte), l.length ≠ 6 →
    exec (.codecCfgunpack l) s = .next (refuse .badOperand s))

/-- `CODEC.GRPUNPACK` answers three little-endian 16-bit codes and rejects no code value; refused when
the argument is not six bytes (41_codec R154, 30_encoding R97). -/
def Obligations.GrpUnpackCodes : Prop :=
  (∀ (s : State) (d : Six), ∃ t : Triple Code,
    exec (.codecGrpunpack d.toList) s = .next (finish (.codes t) s) ∧
    t.s0.toNat = d.d0.toNat + 256 * d.d1.toNat ∧ t.s1.toNat = d.d2.toNat + 256 * d.d3.toNat ∧
    t.s2.toNat = d.d4.toNat + 256 * d.d5.toNat) ∧
  (∀ (s : State) (l : List Byte), l.length ≠ 6 →
    exec (.codecGrpunpack l) s = .next (refuse .badOperand s))

/-- `CODEC.CMPV` answers `(vuv + 1) * 16` and `vov * 16`; refused on an operand above 4095 (41_codec
R155). -/
def Obligations.CmpvValues : Prop :=
  ∀ (s : State) (vuv vov : Nat),
    exec (.codecCmpv vuv vov) s = .next
      (if vuv ≤ 4095 ∧ vov ≤ 4095 then finish (.comparison ((vuv + 1) * 16) (vov * 16)) s
       else refuse .badOperand s)

/-- `CODEC.BTEMP` answers `-66.875 + 0.004375 * code` and `CODEC.HUMID` answers `-12.5 + 0.0025 * code`,
exactly, for every code, and change nothing (41_codec R156, R157). -/
def Obligations.BoardTempAndHumidity : Prop :=
  ∀ (s : State) (code : Code),
    exec (.codecBtemp code) s =
      .next (finish (.quantity (-(535 / 8) + 7 / 1600 * (code.toNat : Rat))) s) ∧
    exec (.codecHumid code) s =
      .next (finish (.quantity (-(25 / 2) + 1 / 400 * (code.toNat : Rat))) s)

/-- `CODEC.THERM` is done for every code: with `R = 2740 / (code / 50000) - 2740` and
`D = 1/298.15 + LN(R / 10000) / 3984` it answers `1 / D - 273.15` for a code in 1..49999 unless `D` is 0,
and some value otherwise; but for the model's draw counter nothing changes (41_codec R158, R159). `LN` is the
configured function; that it and the result are rational is the model's choice (entry 13). -/
def Obligations.ThermistorValue : Prop :=
  ∀ (s : State) (code : Code),
    let R : Rat := 2740 / ((code.toNat : Rat) / 50000) - 2740
    let D : Rat := 1 / (29815 / 100) + 1 / 3984 * lnOf s.conf (R / 10000)
    ∃ q : Rat, exec (.codecTherm code) s = .next (finish (.quantity q) { s with draws := s.draws + 1 }) ∧
      (1 ≤ code.toNat → code.toNat < 50000 → D = 0 ∨ q = 1 / D - 27315 / 100)

/-! ### Unit U3: the transport -/

/-- `SPI.WAKEUP` on a used line drives it low, waits at least 1 µs, sends `TX_FILL`, drives the line high
and waits at least 400 µs; no register of the block changes, and of the ports only the trace, the bus answers
and the clock; refused for a line no chip uses (42_transport R182). The clock and its lapses are the model's
(entry 10), the bus answers too (entry 9). -/
def Obligations.WakeupActivity : Prop :=
  ∀ (s : State) (line : Nat), linesHigh s →
    ((∃ ch ∈ s.conf.chips, ch.csLine = line) → ∃ (r : Byte) (now : Nat),
      busAnswer s.ports 1 = [r] ∧ s.ports.clkUs + 401 ≤ now ∧
      exec (.spiWakeup line) s = .next (finish .none { s with ports := { s.ports with
        trace := s.ports.trace ++
          [.cs line false, .wait 1, .xfer s.conf.txFill r, .cs line true, .wait 400],
        rx := s.ports.rx.drop 1, xfers := s.ports.xfers + 1,
        clkUs := now, lapses := s.ports.lapses.drop 2, clockReads := s.ports.clockReads + 2 } })) ∧
    ((∀ ch ∈ s.conf.chips, ch.csLine ≠ line) → exec (.spiWakeup line) s = .next (refuse .badLine s))

/-- `SPI.WRREG` sends, in one chip-select window on the chip's line, the command frame, its PEC, the six
data bytes and their PEC: 12 bytes; nothing else changes (42_transport R183, 30_encoding R95). -/
def Obligations.WrregFrame : Prop :=
  ∀ (s : State) (c cc : Nat) (ch : ChipConf) (d : Six),
    s.pec.tableValid = true → linesHigh s → s.conf.chips[c]? = some ch → cc < 2048 →
    let cmd := commandBytes ch.addr.toNat cc
    let sent := cmd ++ pecBytes s.pec.table cmd ++ d.toList ++ pecBytes s.pec.table d.toList
    exec (.spiWrreg c cc d.toList) s = .next
      (finish .none { s with ports := afterWindow ch.csLine sent s.ports })

/-- `SPI.RDREG` sends the command frame and its PEC, then eight `TX_FILL`, in one window on the chip's
line; of the eight bytes received meanwhile it answers the first six, and whether the PEC of these is the
last two; nothing else changes (42_transport R184, 30_encoding R96). -/
def Obligations.RdregGroup : Prop :=
  ∀ (s : State) (c cc : Nat) (ch : ChipConf) (d : Six) (r6 r7 : Byte),
    s.pec.tableValid = true → linesHigh s → s.conf.chips[c]? = some ch → cc < 2048 →
    (busAnswer s.ports 12).drop 4 = d.toList ++ [r6, r7] →
    let cmd := commandBytes ch.addr.toNat cc
    let sent := cmd ++ pecBytes s.pec.table cmd ++ List.replicate 8 s.conf.txFill
    exec (.spiRdreg c cc) s = .next (finish
      (.group d.toList (decide (pecBytes s.pec.table d.toList = [r6, r7])))
      { s with ports := afterWindow ch.csLine sent s.ports })

/-- `SPI.ADCSTART` sends the conversion command and its PEC in one window on the chip's line, reads the
clock and records the earliest read time of that chip, the reading plus the mode's delay; it does not wait,
and nothing else changes (42_transport R185, R186). The reading is not before the clock's last one (entry 10).
That a recorded time is overwritten by an earlier one too is the model's reading of R185 (entry 31). -/
def Obligations.AdcstartFrame : Prop :=
  ∀ (s : State) (c mode : Nat) (kind : AdcKind) (ch : ChipConf),
    s.pec.tableValid = true → linesHigh s → s.conf.chips[c]? = some ch → mode < 4 →
    let cmd := commandBytes ch.addr.toNat (s.conf.codes.adc kind (BitVec.ofNat 2 mode)).toNat
    let w := afterWindow ch.csLine (cmd ++ pecBytes s.pec.table cmd) s.ports
    ∃ now : Nat, s.ports.clkUs ≤ now ∧
      exec (.spiAdcstart c kind mode) s = .next (finish .none
        { s with
          ports := { w with clkUs := now, lapses := s.ports.lapses.tail, clockReads := s.ports.clockReads + 1 },
          adcReadyAt := s.adcReadyAt.set c (now + [13000, 1300, 3100, 203000].getD mode 0) })

/-! ### Unit U4: the scheduler -/

/-- `SCHED.SETCFG` replaces the configuration image of chip `c` by the fields given; no other image, no
pair, no sequencing state and nothing on the bus changes; refused for a chip id or a field out of range
(43_scheduler R201). -/
def Obligations.SetcfgImage : Prop :=
  ∀ (s : State) (c : Nat) (f : CfgArg), storesSized s →
    (c < s.conf.nChips → f.inRange = true → ∃ u : SchedUnit,
      exec (.schedSetcfg c f) s = .next (finish .none { s with sched := u }) ∧
      u.grp = s.sched.grp ∧ u.cycle = s.sched.cycle ∧ u.chips.length = s.sched.chips.length ∧
      (∀ d g, u.pair d g = s.sched.pair d g) ∧
      (∀ d, d ≠ c → (u.chip d).cfg = (s.sched.chip d).cfg) ∧
      (u.chip c).cfg.gpioEnable.toNat = f.gpioEnable ∧ (u.chip c).cfg.refon.toNat = f.refon ∧
      (u.chip c).cfg.adcopt.toNat = f.adcopt ∧ (u.chip c).cfg.vuv.toNat = f.vuv ∧
      (u.chip c).cfg.vov.toNat = f.vov ∧ (u.chip c).cfg.dcc.toNat = f.dcc ∧
      (u.chip c).cfg.dcto.toNat = f.dcto) ∧
    (s.conf.nChips ≤ c ∨ f.inRange = false →
      exec (.schedSetcfg c f) s = .next (refuse .badOperand s))

/-- `SCHED.NEXT` moves exactly the bytes of this sequence of operations and wire commands, and its reports are
what the read commands answer: before `CV_A` and `AUX_A` a wake-up of every used line, ascending, and `WRCFG`
for every chip; then the group's read command for every chip in ascending order (43_scheduler R202, R203,
R204; 30_encoding R106). That a wire command is an instruction with this effect is the model's choice (entry
19). Chips are told apart by line and address (70_reset R386). -/
def Obligations.NextIsItsWireCommands : Prop :=
  ∀ (s t : State) (g : ReadGroup),
    s.pec.tableValid = true → s.sched.grp = groupBits g → distinctChips s.conf.chips = true →
    exec .schedNext s = .next t →
    ∃ (lines : List Nat) (pre : List Instr) (u : State) (reports : List ChipReport),
      lines.Pairwise (· < ·) ∧ (∀ l, l ∈ lines ↔ ∃ ch ∈ s.conf.chips, ch.csLine = l) ∧
      pre = (if g = .cvA ∨ g = .auxA then
        lines.map Instr.spiWakeup ++ s.conf.chips.map (fun ch => .wrcfg ch.csLine ch.addr) else []) ∧
      execAll (pre ++ s.conf.chips.map (fun ch => readInstr g ch.csLine ch.addr)) s = some u ∧
      u.outcomes = s.outcomes ++ List.replicate pre.length (.done .none) ++
        reports.map (fun r => .done (.packet r)) ∧
      t.outcomes = s.outcomes ++ [.done (.scheduled g reports)] ∧ t.ports = u.ports

/-- `SCHED.NEXT` with a built table and a legal group answers that group with one report per chip, moves
`GRP` to the next group, adds one to `CYCLE` exactly when it read `AUX_B`, and touches only the scheduler
and the ports: no configuration image, and no pair of another group, changes (43_scheduler R202, R208,
R209). -/
def Obligations.NextAdvances : Prop :=
  ∀ (s : State) (g : ReadGroup), s.pec.tableValid = true → s.sched.grp = groupBits g →
    ∃ (reports : List ChipReport) (u : SchedUnit) (p : Ports),
      exec .schedNext s = .next (finish (.scheduled g reports) { s with sched := u, ports := p }) ∧
      reports.length = s.conf.nChips ∧ u.chips.length = s.sched.chips.length ∧
      u.grp.toNat = (s.sched.grp.toNat + 1) % 6 ∧
      u.cycle = s.sched.cycle + (if g = .auxB then 1 else 0) ∧
      (∀ c, (u.chip c).cfg = (s.sched.chip c).cfg) ∧
      (∀ c h, h ≠ g → u.pair c h = s.sched.pair c h)

/-- A chip whose three slots of the current group are of kind `none` is reported absent and skipped, and
its `VALID`, `INVCNT` and `SAMPLE` are untouched (43_scheduler R205). -/
def Obligations.NextSkipsEmptyGroups : Prop :=
  ∀ (s : State) (g : ReadGroup) (c : Nat) (ch : ChipConf),
    s.pec.tableValid = true → s.sched.grp = groupBits g → s.conf.chips[c]? = some ch →
    ch.kind.get g = ⟨.none, .none, .none⟩ →
    ∃ (reports : List ChipReport) (t : State),
      exec .schedNext s = .next (finish (.scheduled g reports) t) ∧
      reports[c]? = some ⟨none, .skipped⟩ ∧ t.sched.pair c g = s.sched.pair c g

/-- Every other chip is read: `VALID` takes the verdict, `INVCNT` is 0 after a valid packet and one more
after an invalid one, a valid packet's codes go into the slots whose kind is not `none`, and an invalid
packet stores nothing; the report carries the codes and the verdict either way (43_scheduler R204, R206,
R207). -/
def Obligations.NextUpdatesPairs : Prop :=
  ∀ (s : State) (g : ReadGroup) (c : Nat) (ch : ChipConf),
    s.pec.tableValid = true → s.sched.grp = groupBits g → storesSized s →
    s.conf.chips[c]? = some ch → ch.kind.get g ≠ ⟨.none, .none, .none⟩ →
    ∃ (reports : List ChipReport) (t : State) (codes : Triple Code) (ok : Bool),
      exec .schedNext s = .next (finish (.scheduled g reports) t) ∧
      reports[c]? = some ⟨some codes, if ok then .valid else .invalid⟩ ∧
      (t.sched.pair c g).valid = ok ∧
      (t.sched.pair c g).invCnt = (if ok then 0 else (s.sched.pair c g).invCnt + 1) ∧
      (t.sched.pair c g).sample.s0 = (if ok = true ∧ (ch.kind.get g).s0 ≠ .none then some codes.s0
        else (s.sched.pair c g).sample.s0) ∧
      (t.sched.pair c g).sample.s1 = (if ok = true ∧ (ch.kind.get g).s1 ≠ .none then some codes.s1
        else (s.sched.pair c g).sample.s1) ∧
      (t.sched.pair c g).sample.s2 = (if ok = true ∧ (ch.kind.get g).s2 ≠ .none then some codes.s2
        else (s.sched.pair c g).sample.s2)

/-- `SCHED.NEXT` finding `GRP` outside the six groups touches no port, sets `GRP` to `CV_A` and returns
(60_exceptions R349). That `GRP` is held in three bits is the model's choice (entry 17). -/
def Obligations.NextRestartsOnImpossibleGroup : Prop :=
  ∀ s : State, s.pec.tableValid = true → 6 ≤ s.sched.grp.toNat →
    exec .schedNext s = .next (finish .restarted { s with sched := { s.sched with grp := 0#3 } })

/-- The position `6 * CYCLE + GRP` after `n` invocations of `SCHED.NEXT` is `n` more; in particular six
invocations from `CV_A` answer the six groups in order, leave `GRP = CV_A` and add one to `CYCLE`
(43_scheduler R211). -/
def Obligations.RefreshTakesSixInvocations : Prop :=
  ∀ s : State, s.pec.tableValid = true → s.sched.grp.toNat < 6 →
    (∀ n, ∃ t, execAll (List.replicate n .schedNext) s = some t ∧ t.sched.grp.toNat < 6 ∧
      6 * t.sched.cycle + t.sched.grp.toNat = 6 * s.sched.cycle + s.sched.grp.toNat + n) ∧
    (s.sched.grp = 0#3 → ∃ (t : State) (r0 r1 r2 r3 r4 r5 : List ChipReport),
      execAll (List.replicate 6 .schedNext) s = some t ∧ t.sched.grp = 0#3 ∧
      t.sched.cycle = s.sched.cycle + 1 ∧
      t.outcomes = s.outcomes ++ [.done (.scheduled .cvA r0), .done (.scheduled .cvB r1),
        .done (.scheduled .cvC r2), .done (.scheduled .cvD r3), .done (.scheduled .auxA r4),
        .done (.scheduled .auxB r5)])

/-- `SCHED.FAULTDATA` answers for each chip the largest of its six counters, the largest of these (0 with
no chip), and `CYCLE`; it writes nothing (43_scheduler R210). -/
def Obligations.FaultdataMaxima : Prop :=
  ∀ s : State, ∃ (m : Nat) (l : List Nat),
    exec .schedFaultdata s = .next (finish (.faultData m l s.sched.cycle) s) ∧
    l.length = s.conf.nChips ∧
    (∀ c x, l[c]? = some x → (∀ g, (s.sched.pair c g).invCnt ≤ x) ∧ ∃ g, (s.sched.pair c g).invCnt = x) ∧
    (∀ x ∈ l, x ≤ m) ∧ (m = 0 ∨ m ∈ l)

/-! ### Unit U5: the controller -/

/-- `CTL.INIT`, once: every `LAST_OK[k]` and `LAST_EVAL` become `now`, `CFG_OK` the host's verdict,
`CTL_READY` true; nothing else changes; a second one is refused (44_fault_comparator R232). -/
def Obligations.InitStartsTimers : Prop :=
  ∀ (s : State) (now : Nat) (cfgOk : Bool),
    (s.ctl.ready = false → exec (.ctlInit now cfgOk) s = .next (finish .none { s with ctl := { s.ctl with
      lastOk := ⟨now, now, now, now, now, now⟩, lastEval := now, cfgOk := cfgOk, ready := true } })) ∧
    (s.ctl.ready = true → exec (.ctlInit now cfgOk) s = .next (refuse .alreadyInitialised s))

/-- `CTL.SETCHG` writes `CHG_EN` and nothing else, in every state (44_fault_comparator R233). -/
def Obligations.SetchgWritesFlag : Prop :=
  ∀ (s : State) (en : Bool),
    exec (.ctlSetchg en) s = .next (finish .none { s with ctl := { s.ctl with chgEn := en } })

/-- The fault part of a controller tick: a timer restarts exactly when its class is not violated, a fault
is active exactly when its timer exceeds the class's duration, strictly, and `HAS_FAULT` is the OR of the
six with the standing configuration fault; the status returned is the state after the tick, and only the
controller changes (44_fault_comparator R234, R236 to R245, R247, R248). The model's readings in it: the
snapshot lists every cell (entry 21), the divisors are positive while `CFG_OK` is true (entry 22), the status
carries `LAST_NOT_OK` only after a not-ok tick (entry 15) and carries `LAST_EVAL` (entry 32). -/
def Obligations.EvaluateFaults : Prop :=
  ∀ (s : State) (snap : Snapshot) (now : Nat) (cur : Rat), evaluable snap now s →
    ∃ u : CtlUnit,
      exec (.ctlEvaluate snap now cur) s = .next (finish
        (.status ⟨u.hasFault, u.bmsOk, u.soc, u.bal, u.lastOk,
          if u.notOkSeen then some u.lastNotOk else none, u.lastEval⟩) { s with ctl := u }) ∧
      (∀ k, violated s.conf.ctl s.ctl.chgEn snap cur k → u.lastOk.get k = s.ctl.lastOk.get k) ∧
      (∀ k, ¬ violated s.conf.ctl s.ctl.chgEn snap cur k → u.lastOk.get k = now) ∧
      (∀ k, u.fault.get k = true ↔ now - u.lastOk.get k > s.conf.ctl.maxDurMs.get k) ∧
      (u.hasFault = true ↔ (∃ k, u.fault.get k = true) ∨ s.ctl.cfgOk = false) ∧
      u.lastEval = now ∧ u.ready = s.ctl.ready ∧ u.cfgOk = s.ctl.cfgOk ∧ u.chgEn = s.ctl.chgEn

/-- The second debounce layer of a tick (44_fault_comparator R246). -/
def Obligations.EvaluateBmsOk : Prop :=
  ∀ (s : State) (snap : Snapshot) (now : Nat) (cur : Rat), evaluable snap now s →
    ∃ (st : ControllerStatus) (u : CtlUnit),
      exec (.ctlEvaluate snap now cur) s = .next (finish (.status st) { s with ctl := u }) ∧
      (u.hasFault = true → u.bmsOk = false ∧ u.lastNotOk = now ∧ u.notOkSeen = true) ∧
      (u.hasFault = false → u.lastNotOk = s.ctl.lastNotOk ∧ u.notOkSeen = s.ctl.notOkSeen ∧
        (u.bmsOk = false ↔ s.ctl.notOkSeen = true ∧
          now - s.ctl.lastNotOk < s.conf.ctl.bmsOkHoldoffMs))

/-- The balance part of a tick: the temperature gate with its hysteresis, and one flag per cell
(45_balance_soc R270, R271). -/
def Obligations.EvaluateBalance : Prop :=
  ∀ (s : State) (snap : Snapshot) (now : Nat) (cur : Rat), evaluable snap now s →
    ∃ (st : ControllerStatus) (u : CtlUnit),
      exec (.ctlEvaluate snap now cur) s = .next (finish (.status st) { s with ctl := u }) ∧
      (s.ctl.balTempOk = true →
        (u.balTempOk = false ↔ s.conf.ctl.balTempLimitC < snap.maxBoardTemp)) ∧
      (s.ctl.balTempOk = false →
        (u.balTempOk = true ↔ snap.maxBoardTemp < s.conf.ctl.balTempEnableC)) ∧
      u.bal.length = s.conf.nCellsTotal ∧
      (∀ (i : Nat) (v : Rat), snap.cellV[i]? = some v → ∃ b : Bool, u.bal[i]? = some b ∧
        (b = true ↔ s.ctl.chgEn = true ∧ u.balTempOk = true ∧
          s.conf.ctl.balDiffV < v - snap.minCellV ∧ s.conf.ctl.balFloorV < v))

/-- The coulomb counter of a tick: charge over the time since the last tick, divided by the capacity, with
`SOC_SIGN`, clamped to 0..1 (45_balance_soc R273); with a capacity of 0, which is excluded while `CFG_OK` is
true, the quotient is a value the spec does not give (entry 22). -/
def Obligations.EvaluateSoc : Prop :=
  ∀ (s : State) (snap : Snapshot) (now : Nat) (cur : Rat), evaluable snap now s →
    ∃ (st : ControllerStatus) (u : CtlUnit),
      exec (.ctlEvaluate snap now cur) s = .next (finish (.status st) { s with ctl := u }) ∧
      let dq := cur * (((now - s.ctl.lastEval : Nat) : Rat) / 1000) / 3600
      let sign : Rat := if s.conf.ctl.socSign = .plus then 1 else -1
      u.soc = min 1 (max 0 (s.ctl.soc + (if s.conf.ctl.capacityAh = 0 then Config.freeQuotient (sign * dq)
        else sign * dq / s.conf.ctl.capacityAh)))

/-! ### Unit U6: the latches -/

/-- `LATCH.UPDATE` records the three signals; a signal seen false sets its latch, a signal seen true
leaves its latch; nothing else changes (46_latch R291). -/
def Obligations.UpdateLatchesFalseSignals : Prop :=
  ∀ (s : State) (imdOk bmsOk shdnValid : Bool),
    exec (.latchUpdate imdOk bmsOk shdnValid) s = .next (finish .none { s with latch :=
      { latchBms := if bmsOk then s.latch.latchBms else true
        latchImd := if imdOk then s.latch.latchImd else true
        latchShdn := if shdnValid then s.latch.latchShdn else true
        obsBmsOk := bmsOk, obsImdOk := imdOk, obsShdnOk := shdnValid } })

/-- `LATCH.CLEAR` clears the three latches and answers true when all three signals were last seen true;
otherwise it changes nothing and answers false. `LATCH.READ` answers the three latches and the aggregate
and writes nothing (46_latch R292, R293, R294). -/
def Obligations.ClearAndReadLatches : Prop :=
  ∀ s : State,
    let faulted := !(s.latch.obsImdOk && s.latch.obsBmsOk && s.latch.obsShdnOk)
    exec .latchClear s = .next (finish (.cleared (!faulted))
      (if faulted then s
       else { s with latch := { s.latch with latchBms := false, latchImd := false, latchShdn := false } })) ∧
    exec .latchRead s = .next
      (finish (.latches s.latch.latchBms s.latch.latchImd s.latch.latchShdn faulted) s)

/-- After any sequence of operations from a state whose latches are as after reset, a latch is set exactly
when some `LATCH.UPDATE` saw its signal false and no `LATCH.CLEAR` after it answered true (46_latch R295
(a), derived by the spec). -/
def Obligations.LatchRemembersFalseSignal : Prop :=
  ∀ (s t : State) (ops : List Instr), s.latch = ⟨false, false, false, true, true, true⟩ →
    execAll ops s = some t →
    let since := fun (sawFalse : Instr → Prop) => ∃ (pre post : List Instr) (i : Instr) (u : State)
        (l : List OpOutcome), ops = pre ++ i :: post ∧ sawFalse i ∧ execAll (pre ++ [i]) s = some u ∧
        t.outcomes = u.outcomes ++ l ∧ .done (.cleared true) ∉ l
    (t.latch.latchBms = true ↔ since fun i => ∃ m v, i = .latchUpdate m false v) ∧
    (t.latch.latchImd = true ↔ since fun i => ∃ b v, i = .latchUpdate false b v) ∧
    (t.latch.latchShdn = true ↔ since fun i => ∃ m b, i = .latchUpdate m b false)

/-! ### Unit U7: the supervisor and the watchdog -/

/-- The complete next-state function (47_acu_fsm R306): every tick that is not refused for its time answers
the state of the table and leaves the supervisor in it; but for `CHG_EN`, the supervisor's own flags and
port `LATCH_EN` nothing changes, and `WD_OUT` does not; the port is driven, asserted or de-asserted, exactly
when `FAULTED` is entered or left. -/
def Obligations.SupervisorTransitions : Prop :=
  ∀ (s : State) (now : Nat) (shdnValid chargeReq bmsFault imdFault : Bool),
    ¬ (s.fsm.state = .faulted ∧ now < s.fsm.faultEntry) →
    let fault := bmsFault || imdFault
    ∃ (n : AcuState) (acts : List Action) (fsm : FsmUnit) (chgEn : Bool),
      exec (.fsmAdvance now shdnValid chargeReq bmsFault imdFault) s = .next (finish (.advanced n acts)
        { s with
          fsm := fsm, ctl := { s.ctl with chgEn := chgEn }
          ports := { s.ports with
            trace := s.ports.trace ++ (if (n = .faulted ↔ s.fsm.state = .faulted) then []
              else [.latchEn (decide (n = .faulted))]) } }) ∧
      fsm.state = n ∧ fsm.wdOut = s.fsm.wdOut ∧
      (s.fsm.state = .startup → n = if shdnValid then .active else .startup) ∧
      (s.fsm.state = .active → chargeReq = true → n = .charging) ∧
      (s.fsm.state = .active → chargeReq = false → n = if fault then .faulted else .active) ∧
      (s.fsm.state = .charging → fault = true → n = .faulted) ∧
      (s.fsm.state = .charging → fault = false → chargeReq = false → n = .active) ∧
      (s.fsm.state = .charging → fault = false → chargeReq = true →
        n = if shdnValid then .charging else .startup) ∧
      (s.fsm.state = .faulted → n = if shdnValid = true ∧ fault = false then .startup else .faulted)

/-- Entry to `FAULTED`, from `ACTIVE` without a charge request and from `CHARGING`: the watchdog is
disabled, the latch output asserted on its port, the entry time recorded, coming from `CHARGING` charging
is disabled first; nothing else is saved or changed (47_acu_fsm R309, R310; 60_exceptions R348). -/
def Obligations.EntryToFaulted : Prop :=
  ∀ (s : State) (now : Nat) (shdnValid chargeReq bmsFault imdFault : Bool),
    (bmsFault = true ∨ imdFault = true) →
    (s.fsm.state = .charging ∨ s.fsm.state = .active ∧ chargeReq = false) →
    exec (.fsmAdvance now shdnValid chargeReq bmsFault imdFault) s = .next (finish
      (.advanced .faulted ((if s.fsm.state = .charging then [.balDisable] else []) ++
        [.wdDisable, .latchAssert, .recordEntry now]))
      { s with
        fsm := { s.fsm with state := .faulted, wdArmed := false, latchOut := true, faultEntry := now }
        ctl := { s.ctl with chgEn := if s.fsm.state = .charging then false else s.ctl.chgEn }
        ports := { s.ports with trace := s.ports.trace ++ [.latchEn true] } })

/-- Exit from `FAULTED`, when the shutdown signal is valid and no fault stands: to `STARTUP`, the latch
output de-asserted on its port, the watchdog re-armed; nothing of the state before the fault is restored
(47_acu_fsm R305, R311; 60_exceptions R351). -/
def Obligations.ExitFromFaulted : Prop :=
  ∀ (s : State) (now : Nat) (chargeReq : Bool), s.fsm.state = .faulted → s.fsm.faultEntry ≤ now →
    exec (.fsmAdvance now true chargeReq false false) s = .next (finish
      (.advanced .startup [.latchDeassert, .wdRearm, .wdRearm])
      { s with
        fsm := { s.fsm with state := .startup, wdArmed := true, latchOut := false }
        ports := { s.ports with trace := s.ports.trace ++ [.latchEn false] } })

/-- A tick that stays in `FAULTED` re-arms the watchdog exactly when more than 1000 ms have passed since
entry and the BMS fault has cleared, and does nothing else (47_acu_fsm R312). -/
def Obligations.FaultedSelfLoop : Prop :=
  ∀ (s : State) (now : Nat) (shdnValid chargeReq bmsFault imdFault : Bool),
    s.fsm.state = .faulted → s.fsm.faultEntry ≤ now →
    (shdnValid = false ∨ bmsFault = true ∨ imdFault = true) →
    exec (.fsmAdvance now shdnValid chargeReq bmsFault imdFault) s = .next
      (if now - s.fsm.faultEntry > 1000 ∧ bmsFault = false then
        finish (.advanced .faulted [.wdRearm]) { s with fsm := { s.fsm with wdArmed := true } }
       else finish (.advanced .faulted []) s)

/-- Charging is enabled on entering `CHARGING` and disabled on leaving it to `ACTIVE` or `STARTUP`;
entering `STARTUP` re-arms the watchdog; a tick that takes no transition outside `FAULTED` changes nothing
(47_acu_fsm R307, R308, R310, R313, R314). -/
def Obligations.ChargingEntryAndExit : Prop :=
  ∀ (s : State) (now : Nat) (shdnValid bmsFault imdFault : Bool),
    (s.fsm.state = .active → exec (.fsmAdvance now shdnValid true bmsFault imdFault) s = .next (finish
      (.advanced .charging [.balEnable])
      { s with fsm := { s.fsm with state := .charging }, ctl := { s.ctl with chgEn := true } })) ∧
    (s.fsm.state = .charging → exec (.fsmAdvance now shdnValid false false false) s = .next (finish
      (.advanced .active [.balDisable])
      { s with fsm := { s.fsm with state := .active }, ctl := { s.ctl with chgEn := false } })) ∧
    (s.fsm.state = .charging → exec (.fsmAdvance now false true false false) s = .next (finish
      (.advanced .startup [.balDisable, .wdRearm])
      { s with fsm := { s.fsm with state := .startup, wdArmed := true }
               ctl := { s.ctl with chgEn := false } })) ∧
    (s.fsm.state = .startup → ∀ chargeReq,
      exec (.fsmAdvance now shdnValid chargeReq bmsFault imdFault) s = .next
        (if shdnValid then
          finish (.advanced .active []) { s with fsm := { s.fsm with state := .active } }
         else finish (.advanced .startup []) s)) ∧
    (s.fsm.state = .active → exec (.fsmAdvance now shdnValid false false false) s =
      .next (finish (.advanced .active []) s)) ∧
    (s.fsm.state = .charging → exec (.fsmAdvance now true true false false) s =
      .next (finish (.advanced .charging []) s))

/-- `WD.KICK` toggles the watchdog output and drives its port while armed, and does nothing while disarmed
(47_acu_fsm R315). -/
def Obligations.KickTogglesWhileArmed : Prop :=
  ∀ s : State, exec .wdKick s = .next (finish .none
    (if s.fsm.wdArmed then
      { s with fsm := { s.fsm with wdOut := !s.fsm.wdOut }
               ports := { s.ports with trace := s.ports.trace ++ [.wdKick (!s.fsm.wdOut)] } }
     else s))

/-! ### The wire commands -/

/-- `RDCVA` to `RDAUXB` on the chip at a line and an address: skipped when the group has no data there;
otherwise one read window with the group's command code, the codes and the verdict in the result. No
register of the block changes: `VALID`, `INVCNT` and `SAMPLE` are written by `SCHED.NEXT` only (43_scheduler
R204, R205; 10_state R25, R31). That such a command can be asked for alone, and the chip it selects, are the
model's choice (entry 19). -/
def Obligations.ReadCommandsReadTheirGroup : Prop :=
  ∀ (s : State) (g : ReadGroup) (c : Nat) (ch : ChipConf) (d : Six) (r6 r7 : Byte),
    s.pec.tableValid = true → linesHigh s → distinctChips s.conf.chips = true →
    s.conf.chips[c]? = some ch → (busAnswer s.ports 12).drop 4 = d.toList ++ [r6, r7] →
    let ok := decide (pecBytes s.pec.table d.toList = [r6, r7])
    let cmd := commandBytes ch.addr.toNat (s.conf.codes.rd.get g).toNat
    let codes : Triple Code := ⟨d.d1 ++ d.d0, d.d3 ++ d.d2, d.d5 ++ d.d4⟩
    exec (readInstr g ch.csLine ch.addr) s = .next
      (if ch.kind.get g = ⟨.none, .none, .none⟩ then finish (.packet ⟨none, .skipped⟩) s
       else finish (.packet ⟨some codes, if ok then .valid else .invalid⟩)
        { s with
          ports := afterWindow ch.csLine
            (cmd ++ pecBytes s.pec.table cmd ++ List.replicate 8 s.conf.txFill) s.ports })

/-- `WRCFG` on the chip at a line and an address sends that chip's packed image with `CC_WRCFG`, exactly as
`SPI.WRREG` would; `ADC(kind, mode)` is exactly `SPI.ADCSTART` on that chip (43_scheduler R203,
42_transport R185, 30_encoding R106; entry 19). -/
def Obligations.WrcfgAndAdcCommands : Prop :=
  ∀ (s : State) (c : Nat) (ch : ChipConf),
    s.pec.tableValid = true → linesHigh s → distinctChips s.conf.chips = true →
    s.conf.chips[c]? = some ch →
    (exec (.wrcfg ch.csLine ch.addr) s =
        exec (.spiWrreg c s.conf.codes.wrcfg.toNat (cfgPack s.conf.layout (s.sched.chip c).cfg).toList) s ∧
      ∃ p : Ports, exec (.wrcfg ch.csLine ch.addr) s = .next (finish .none { s with ports := p })) ∧
    ∀ (kind : AdcKind) (mode : BitVec 2),
      exec (.adc ch.csLine ch.addr kind mode) s = exec (.spiAdcstart c kind mode.toNat) s ∧
      ∃ (p : Ports) (at_ : Nat), exec (.adc ch.csLine ch.addr kind mode) s = .next
        (finish .none { s with ports := p, adcReadyAt := s.adcReadyAt.set c at_ })

/-! ### Invariants that every step keeps -/

/-- Every step keeps the chip-select discipline: over all port activity at most one line is low at any
time, bytes move only inside a window, and between operations every line is high (42_transport R189). -/
def Obligations.StepKeepsBusDiscipline : Prop :=
  ∀ s t : State, busDisciplined s → linesHigh s → step s = .next t → busDisciplined t ∧ linesHigh t

/-- Every step keeps the table as `PEC.BUILD` wrote it, and every frame sent carries the right PEC and an
addressed command (40_pec R135, 30_encoding R119 (a), 20_memory R73 (a)). -/
def Obligations.StepKeepsFramesSound : Prop :=
  ∀ s t : State, tableSound s → framesSound s → step s = .next t → tableSound t ∧ framesSound t

/-- Every step keeps the scheduler's store sound: `GRP` legal, an entry for every chip, no invalid run
after a valid packet, no sample in a slot without data, skipped pairs untouched (10_state R25, R27;
43_scheduler R205 to R207, R212 (a)). -/
def Obligations.StepKeepsSchedulerSound : Prop :=
  ∀ s t : State, groupLegal s → storesSized s → countersSound s → slotsSound s → skippedUntouched s →
    step s = .next t →
    groupLegal t ∧ storesSized t ∧ countersSound t ∧ slotsSound t ∧ skippedUntouched t

/-- Every step keeps the controller sound: `SOC` in 0..1, `BMS_OK` false while a fault stands, no stored
time after the last tick (45_balance_soc R274; 44_fault_comparator R246, R249). -/
def Obligations.StepKeepsControllerSound : Prop :=
  ∀ s t : State, socInRange s → bmsOkSound s → timesSound s → step s = .next t →
    socInRange t ∧ bmsOkSound t ∧ timesSound t

/-- Every step keeps the outputs sound: the latch output is asserted exactly in `FAULTED`, the watchdog is
armed outside `FAULTED`, and a signal last seen false has its latch set (47_acu_fsm R307, R309, R311;
46_latch R291, R292). -/
def Obligations.StepKeepsOutputsSound : Prop :=
  ∀ s t : State, outputsSound s → latchesSound s → step s = .next t → outputsSound t ∧ latchesSound t

/-- A fresh block meets every one of these invariants, whatever its parameters with `SOC_INIT` in 0..1, and the
controller configuration of `State.reset` meets the constraints of 70_reset R387 and 45_balance_soc R274, so
that its `SOC_INIT` is in 0..1 (10_state R46; 70_reset R381, R382). The model's choices in it: that the opaque
configuration of `State.reset` is put inside those constraints (entry 5), and that the stored times of a fresh block lie
before its last tick, which rests on the zeros the model gives them (entry 15). -/
def Obligations.ResetMeetsInvariants : Prop :=
  State.reset.conf.ctl.valid = true ∧ ∀ k : Config, 0 ≤ k.ctl.socInit → k.ctl.socInit ≤ 1 →
    let s := State.resetWith k
    busDisciplined s ∧ linesHigh s ∧ tableSound s ∧ framesSound s ∧ groupLegal s ∧ storesSized s ∧
      countersSound s ∧ slotsSound s ∧ skippedUntouched s ∧ socInRange s ∧ bmsOkSound s ∧
      timesSound s ∧ outputsSound s ∧ latchesSound s

/-- What reset leaves, for every element to which 10_state R46 gives a value, whatever the parameters. -/
def Obligations.ResetValues : Prop :=
  ∀ k : Config,
    let s := State.resetWith k
    s.pec.tableValid = false ∧ s.sched.grp = groupBits .cvA ∧ s.sched.cycle = 0 ∧
    (∀ c g, (s.sched.pair c g).valid = false ∧ (s.sched.pair c g).invCnt = 0 ∧
      (s.sched.pair c g).sample = ⟨none, none, none⟩) ∧
    (∀ c, (s.sched.chip c).cfg = ⟨0, 0, 0, 0, 0, 0, 0⟩) ∧
    s.ctl.ready = false ∧ s.ctl.cfgOk = false ∧ (∀ f, s.ctl.fault.get f = false) ∧
    s.ctl.hasFault = false ∧ s.ctl.bmsOk = true ∧ s.ctl.notOkSeen = false ∧ s.ctl.chgEn = false ∧
    s.ctl.balTempOk = false ∧ s.ctl.bal = List.replicate k.nCellsTotal false ∧
    s.ctl.soc = k.ctl.socInit ∧ s.latch = ⟨false, false, false, true, true, true⟩ ∧
    s.fsm.state = .startup ∧ s.fsm.wdArmed = true ∧ s.fsm.latchOut = false ∧ s.fsm.wdOut = false ∧
    (∀ line, s.ports.cs line = true) ∧ s.adcReadyAt = List.replicate k.nChips 0
end

