-- ==== Sys2Proof/Tests/Slice0.lean ====
section
/-! SUPPORT. Tests: ill-formed terms that WellFormed refuses, a written-out word for every constructor,
one or two single steps per operation with the results of spec/95_test_vectors.md, and for each statement
with hypotheses a state and operands that meet them. -/

namespace Sys2Proof.Tests

open Sys2Proof Sys2Proof.Machine Sys2Proof.Safety

-- one theorem after another: a waiting kernel evaluation would hold a thread of its own
set_option Elab.async false

/-! ### Small states (95_test_vectors 4.2, 4.3; `TX_FILL` 0xFF as its examples have it) -/

/-- The controller configuration of program P3. -/
def ctlP3 : CtlConf :=
  { ovThreshV := 42 / 10, uvThreshV := 3, minPackV := 36, otChargeCell := 45, otChargeBoard := 50,
    otRunCell := 60, otRunBoard := 70, invalidCountThresh := 3, maxDurMs := PerClass.const 500,
    bmsOkHoldoffMs := 1000, balDiffV := 2 / 100, balFloorV := 3, balTempEnableC := 45,
    balTempLimitC := 60, packIrOhm := 12 / 1000, irCellCount := 12, capacityAh := 10,
    socSign := .plus, socInit := 1 / 2 }

/-- Chip 0 of program P2: 12 cells, address 0, line 0. -/
def chip0 : ChipConf :=
  { csLine := 0, addr := 0, cells := 12,
    kind :=
      { cvA := cellKinds 12 0, cvB := cellKinds 12 3, cvC := cellKinds 12 6, cvD := cellKinds 12 9,
        auxA := ⟨.temperature, .temperature, .temperature⟩, auxB := ⟨.temperature, .humidity, .none⟩ } }

/-- Chip 1 of program P2: 9 cells, address 1, line 0. -/
def chip1 : ChipConf :=
  { csLine := 0, addr := 1, cells := 9,
    kind :=
      { cvA := cellKinds 9 0, cvB := cellKinds 9 3, cvC := cellKinds 9 6, cvD := cellKinds 9 9,
        auxA := ⟨.temperature, .temperature, .temperature⟩,
        auxB := ⟨.temperature, .boardTemperature, .none⟩ } }

/-- The topology of program P2, with the controller configuration of P3, and `LN` listed at the argument of
the example of 41_codec R158. -/
def conf : Config :=
  { chips := [chip0, chip1], humidityParity := 0, nCellsTotal := 21, codes := defaultCodes,
    txFill := 0xFF, tIdleUs := 2000000, layout := defaultLayout, 
    ln := [(274 / 1000, -(1294627 / 1000000))], ctl := ctlP3 }

/-- A fresh block. -/
def fresh : State := State.resetWith conf

/-- A fresh block after `PEC.BUILD`. -/
def built : State := { fresh with pec := ⟨pecTable, true⟩ }

/-- `built` with the bytes the bus is going to answer. -/
def answering (rx : List Byte) : State := { built with ports := { built.ports with rx := rx } }

/-- `built` at group `g`, with the bytes the bus is going to answer. -/
def atGroup (g : ReadGroup) (rx : List Byte) : State :=
  { answering rx with sched := { built.sched with grp := groupBits g } }

/-- A block in supervisor state `st`, entered `FAULTED` at 1602. -/
def inAcu (st : AcuState) (armed latched : Bool) : State :=
  { fresh with fsm := ⟨st, 1602, armed, latched, true⟩ }

/-- A block with 12 cells in the pack, initialised at `t`, `CHG_EN` as given (P3). -/
def started (t : Nat) (chg : Bool) : State :=
  { State.resetWith { conf with nCellsTotal := 12 } with
    ctl := { CtlUnit.reset { conf with nCellsTotal := 12 } with
      ready := true, cfgOk := true, lastOk := PerClass.const t, lastEval := t, chgEn := chg } }

/-- Snapshot N of program P3. -/
def snapN : Snapshot :=
  { maxCellV := 39 / 10, minCellV := 37 / 10, packV := 448701 / 10000, maxCellTemp := 30,
    maxBoardTemp := 30, maxInvalidCount := 0,
    cellV := [370, 371, 372, 372 + 1 / 100, 373, 380, 370, 371 + 1 / 2, 375, 372, 370 + 1 / 2, 390].map
      fun v : Rat => v / 100 }

/-- Snapshot H of program P3. -/
def snapH : Snapshot := { snapN with maxCellV := 421 / 100 }

/-- The state a step leads to; `fresh` if it does not. -/
def after : Host.Outcome State Fault Refusal → State
  | .next t => t
  | _ => fresh

/-- The outcome of the operation a step ran. -/
def said (o : Host.Outcome State Fault Refusal) : Option OpOutcome := (after o).outcomes.getLast?

/-- The bytes a step sent, window by window. -/
def sent (o : Host.Outcome State Fault Refusal) : List (List Byte) :=
  sentFrames (after o).ports.trace []

/-! ### WellFormed refuses, one term per check -/

/-- Fields that are all zero but for the ones given. -/
def zeroArg : CfgArg := CfgArg.zero

theorem test_wf_addr_16 : (Instr.codecCmd 16 0).wf conf = false := by decide
theorem test_wf_cc_2048 : (Instr.codecCmd 0 2048).wf conf = false := by decide
theorem test_wf_gpio_32 : (Instr.codecCfgpack { zeroArg with gpioEnable := 32 }).wf conf = false := by decide
theorem test_wf_refon_2 : (Instr.codecCfgpack { zeroArg with refon := 2 }).wf conf = false := by decide
theorem test_wf_adcopt_2 : (Instr.codecCfgpack { zeroArg with adcopt := 2 }).wf conf = false := by decide
theorem test_wf_vuv_4096 : (Instr.codecCfgpack { zeroArg with vuv := 4096 }).wf conf = false := by decide
theorem test_wf_vov_4096 : (Instr.codecCfgpack { zeroArg with vov := 4096 }).wf conf = false := by decide
theorem test_wf_dcc_4096 : (Instr.codecCfgpack { zeroArg with dcc := 4096 }).wf conf = false := by decide
theorem test_wf_dcto_16 : (Instr.codecCfgpack { zeroArg with dcto := 16 }).wf conf = false := by decide
theorem test_wf_cfgunpack_5_bytes : (Instr.codecCfgunpack [0, 0, 0, 0, 0]).wf conf = false := by decide
theorem test_wf_grpunpack_7_bytes : (Instr.codecGrpunpack [0, 0, 0, 0, 0, 0, 0]).wf conf = false := by decide
theorem test_wf_cmpv_4096 :
    (Instr.codecCmpv 4096 0).wf conf = false ∧ (Instr.codecCmpv 0 4096).wf conf = false := by decide
theorem test_wf_line_5 : (Instr.spiWakeup 5).wf conf = false := by decide
theorem test_wf_wrreg :
    (Instr.spiWrreg 2 0 [0, 0, 0, 0, 0, 0]).wf conf = false ∧
    (Instr.spiWrreg 0 2048 [0, 0, 0, 0, 0, 0]).wf conf = false ∧
    (Instr.spiWrreg 0 0 []).wf conf = false := by decide
theorem test_wf_rdreg :
    (Instr.spiRdreg 2 0).wf conf = false ∧ (Instr.spiRdreg 0 2048).wf conf = false := by decide
theorem test_wf_adcstart :
    (Instr.spiAdcstart 2 .cell 0).wf conf = false ∧ (Instr.spiAdcstart 0 .cell 4).wf conf = false := by decide
theorem test_wf_setcfg :
    (Instr.schedSetcfg 2 zeroArg).wf conf = false ∧
    (Instr.schedSetcfg 0 { zeroArg with dcto := 16 }).wf conf = false := by decide
theorem test_wf_evaluate_cells : (Instr.ctlEvaluate snapN 0 0).wf conf = false := by decide
theorem test_wf_wire_no_chip :
    (Instr.wrcfg 0 2).wf conf = false ∧ (Instr.wrcfg 1 0).wf conf = false ∧
    (Instr.rdcva 0 2).wf conf = false ∧ (Instr.rdcvb 0 2).wf conf = false ∧
    (Instr.rdcvc 0 2).wf conf = false ∧ (Instr.rdcvd 0 2).wf conf = false ∧
    (Instr.rdauxa 0 2).wf conf = false ∧ (Instr.rdauxb 0 2).wf conf = false ∧
    (Instr.adc 0 2 .cell 0).wf conf = false := by decide

/-- The topology of P2 and the configuration of P3 obey the spec; a repeated address, a wrong cell count
and an uneven sum do not (70_reset R386, R387). -/
theorem test_topology_checks :
    conf.topoValid = true ∧ ctlP3.valid = true ∧
    { conf with chips := [chip0, { chip1 with addr := 0 }] }.topoValid = false ∧
    { conf with chips := [chip0, { chip1 with cells := 12 }] }.topoValid = false ∧
    { conf with nCellsTotal := 20 }.topoValid = false ∧
    { conf with humidityParity := 1 }.topoValid = false ∧
    { ctlP3 with capacityAh := 0 }.valid = false ∧ { ctlP3 with irCellCount := 0 }.valid = false := by
  decide +kernel

/-! ### Decoding: a word for every constructor -/

/-- An operation's request: its `OPSEL` written bit by bit as 30_encoding R108 gives it. -/
def opOf (opsel : Byte) : Except DecodeReject Instr := decode defaultCodes (.op opsel Operands.zero)

/-- Unit U1. -/
theorem test_decode_pec :
    opOf 0b00000001 = .ok .pecBuild ∧ opOf 0b00000010 = .ok (.pecCompute [0, 0, 0, 0, 0, 0]) ∧
    opOf 0b00000011 = .ok (.pecCheck [0, 0, 0, 0, 0, 0] 0 0) := by decide

/-- Unit U2. -/
theorem test_decode_codec :
    opOf 0b00010000 = .ok (.codecCmd 0 0) ∧ opOf 0b00010001 = .ok (.codecCfgpack zeroArg) ∧
    opOf 0b00010010 = .ok (.codecCfgunpack [0, 0, 0, 0, 0, 0]) ∧
    opOf 0b00010011 = .ok (.codecGrpunpack [0, 0, 0, 0, 0, 0]) ∧
    opOf 0b00010100 = .ok (.codecCmpv 0 0) ∧ opOf 0b00010101 = .ok (.codecBtemp 0) ∧
    opOf 0b00010110 = .ok (.codecHumid 0) ∧ opOf 0b00010111 = .ok (.codecTherm 0) := by decide

/-- Units U3 and U4. -/
theorem test_decode_spi_sched :
    opOf 0b00100000 = .ok (.spiWakeup 0) ∧ opOf 0b00100001 = .ok (.spiWrreg 0 0 [0, 0, 0, 0, 0, 0]) ∧
    opOf 0b00100010 = .ok (.spiRdreg 0 0) ∧ opOf 0b00100011 = .ok (.spiAdcstart 0 .cell 0) ∧
    opOf 0b00110000 = .ok (.schedSetcfg 0 zeroArg) ∧ opOf 0b00110001 = .ok .schedNext ∧
    opOf 0b00110010 = .ok .schedFaultdata := by decide

/-- Units U5, U6 and U7. -/
theorem test_decode_ctl_latch_fsm :
    opOf 0b01000000 = .ok (.ctlInit 0 false) ∧ opOf 0b01000001 = .ok (.ctlSetchg false) ∧
    opOf 0b01000010 = .ok (.ctlEvaluate Snapshot.zero 0 0) ∧
    opOf 0b01010000 = .ok (.latchUpdate false false false) ∧ opOf 0b01010001 = .ok .latchClear ∧
    opOf 0b01010010 = .ok .latchRead ∧ opOf 0b01100000 = .ok (.fsmAdvance 0 false false false false) ∧
    opOf 0b01100001 = .ok .wdKick := by decide

/-- The `OPSEL`s of 95_test_vectors 3.8 name no operation. -/
theorem test_decode_unknown_opsel :
    ∀ b ∈ [0x00#8, 0x04#8, 0x18#8, 0x24#8, 0x33#8, 0x43#8, 0x53#8, 0x62#8, 0x70#8, 0xFF#8],
      opOf b = .error (.unknownOpsel b) := by decide

/-- The frames `1aaaaccc cccccccc` of 30_encoding R91 with the codes of 93 G1, bit by bit: the first four
bytes of the rows of 95_test_vectors 3.2. -/
theorem test_decode_frames :
    decode defaultCodes (.wire 0b10010000 0b00000001 0) = .ok (.wrcfg 0 2) ∧
    decode defaultCodes (.wire 0b10011000 0b00000100 0) = .ok (.rdcva 0 3) ∧
    decode defaultCodes (.wire 0b10001000 0b00000110 0) = .ok (.rdcvb 0 1) ∧
    decode defaultCodes (.wire 0b10001000 0b00001000 7) = .ok (.rdcvc 7 1) ∧
    decode defaultCodes (.wire 0b11111000 0b00001010 0) = .ok (.rdcvd 0 15) ∧
    decode defaultCodes (.wire 0b10000000 0b00001100 0) = .ok (.rdauxa 0 0) ∧
    decode defaultCodes (.wire 0b11111000 0b00001110 0) = .ok (.rdauxb 0 15) ∧
    decode defaultCodes (.wire 0b10001011 0b01100000 0) = .ok (.adc 0 1 .cell 2) ∧
    decode defaultCodes (.wire 0b10001101 0b11100000 0) = .ok (.adc 0 1 .gpio 3) := by decide

/-- A frame with bit 7 clear and one with another command code are no wire command (30_encoding R119). -/
theorem test_decode_bad_frames :
    decode defaultCodes (.wire 0b00010000 0b00000001 0) = .error (.notAddressed 0x10) ∧
    decode defaultCodes (.wire 0b10000000 0b00000010 0) = .error (.unknownCommand 2) := by decide

/-- The encoder writes the same words. -/
theorem test_encode_frames :
    encode defaultCodes (.rdcva 0 3) = .wire 0x98 0x04 0 ∧
    encode defaultCodes (.adc 0 1 .gpio 3) = .wire 0x8D 0xE0 0 ∧
    encode defaultCodes .wdKick = .op 0x61 Operands.zero := by decide

/-- The default codes are pairwise different. -/
theorem test_default_codes_distinct : defaultCodes.distinct = true := by decide

/-! ### Unit U1 (95_test_vectors 2.1 to 2.3) -/

theorem test_pec_build :
    ((after (exec .pecBuild fresh)).pec.table.toList.zipIdx.filter fun p =>
      p.2 ∈ [0, 1, 2, 0x21, 0x98, 0xD3, 255]).map Prod.fst =
      [0x0000, 0xC599, 0xCEAB, 0x9EB7, 0xFB83, 0xF773, 0x8095] ∧
    (after (exec .pecBuild fresh)).pec.tableValid = true := by decide +kernel

theorem test_pec_compute :
    ([[], [0x00, 0x01], [0x98, 0x04], [0xFC, 0xE1, 0xA4, 0x8C, 0x05, 0x28],
      [0x31, 0x32, 0x33, 0x34, 0x35, 0x36, 0x37, 0x38, 0x39]].map fun d =>
        said (exec (.pecCompute d) built)) =
      [[0x00, 0x20], [0x3D, 0x6E], [0xE8, 0xE6], [0x9E, 0x56], [0xA6, 0xBE]].map fun r =>
        some (.done (.bytes r)) := by decide +kernel

theorem test_pec_check :
    ([(0x3D, 0x6E), (0x3D, 0x6F), (0x6E, 0x3D)].map fun r : Byte × Byte =>
        said (exec (.pecCheck [0x00, 0x01] r.1 r.2) built)) =
      [true, false, false].map fun b => some (.done (.verdict b)) := by decide +kernel

/-! ### Unit U2 (95_test_vectors 3.1) -/

theorem test_codec_cmd :
    said (exec (.codecCmd 1 0x360) fresh) = some (.done (.bytes [0x8B, 0x60])) ∧
    said (exec (.codecCmd 15 0x7FF) fresh) = some (.done (.bytes [0xFF, 0xFF])) ∧
    said (exec (.codecCmd 16 0) fresh) = some (.refused .fieldOutOfRange) := by decide +kernel

/-- The configuration example of 41_codec R152. -/
def cfgExample : CfgArg := ⟨0x1F, 1, 0, 0x4E1, 0x8CA, 0x805, 2⟩

theorem test_codec_cfgpack :
    said (exec (.codecCfgpack cfgExample) fresh) =
      some (.done (.bytes [0xFC, 0xE1, 0xA4, 0x8C, 0x05, 0x28])) ∧
    said (exec (.codecCfgpack ⟨0, 0, 0, 0xABC, 0x123, 0, 0⟩) fresh) =
      some (.done (.bytes [0x00, 0xBC, 0x3A, 0x12, 0x00, 0x00])) := by decide +kernel

theorem test_codec_cfgunpack :
    said (exec (.codecCfgunpack [0xFC, 0xE1, 0xA4, 0x8C, 0x05, 0x28]) fresh) =
      some (.done (.fields ⟨0x1F, 1, 0, 0x4E1, 0x8CA, 0x805, 2⟩)) ∧
    said (exec (.codecCfgunpack [0xFF, 0xFF, 0xFF, 0xFF, 0xFF, 0xFF]) fresh) =
      some (.done (.fields ⟨0x1F, 1, 1, 0xFFF, 0xFFF, 0xFFF, 15⟩)) := by decide +kernel

theorem test_codec_grpunpack :
    said (exec (.codecGrpunpack [0xE8, 0x9C, 0x28, 0xA0, 0x10, 0x27]) fresh) =
      some (.done (.codes ⟨40168, 41000, 10000⟩)) ∧
    said (exec (.codecGrpunpack [1, 0, 0, 1, 0]) fresh) = some (.refused .badOperand) := by
  decide +kernel

theorem test_codec_cmpv :
    said (exec (.codecCmpv 0x4E1 0x8CA) fresh) = some (.done (.comparison 20000 36000)) ∧
    said (exec (.codecCmpv 4095 4095) fresh) = some (.done (.comparison 65536 65520)) ∧
    said (exec (.codecCmpv 4096 0) fresh) = some (.refused .badOperand) := by decide +kernel

theorem test_codec_btemp :
    said (exec (.codecBtemp 25000) fresh) = some (.done (.quantity (85 / 2))) ∧
    said (exec (.codecBtemp 65535) fresh) = some (.done (.quantity (219840625 / 1000000))) := by
  decide +kernel

theorem test_codec_humid :
    said (exec (.codecHumid 25000) fresh) = some (.done (.quantity 50)) ∧
    said (exec (.codecHumid 0) fresh) = some (.done (.quantity (-25 / 2))) := by decide +kernel

/-- The example of 41_codec R158 at 25000, to four places; `R` at 40000; code 0 is done. -/
theorem test_codec_therm :
    569853 / 10000 < thermistorTemp conf 0 25000 ∧ thermistorTemp conf 0 25000 < 569855 / 10000 ∧
    thermistorOhm 25000 = 2740 ∧ thermistorOhm 40000 = 685 ∧
    ∃ q, exec (.codecTherm 0) fresh = .next (finish (.quantity q) { fresh with draws := 1 }) := by
  refine ⟨by decide +kernel, by decide +kernel, by decide +kernel, by decide +kernel, _, rfl⟩

/-! ### Unit U3 (95_test_vectors 3.2) -/

theorem test_spi_wakeup :
    sent (exec (.spiWakeup 0) fresh) = [[0xFF]] ∧ (after (exec (.spiWakeup 0) fresh)).ports.csLow = [] ∧
    said (exec (.spiWakeup 5) fresh) = some (.refused .badLine) := by decide +kernel

theorem test_spi_wrreg :
    sent (exec (.spiWrreg 0 0x001 [0, 0, 0, 0, 0, 0]) built) =
      [[0x80, 0x01, 0x4D, 0x7A, 0, 0, 0, 0, 0, 0, 0xC2, 0x12]] ∧
    sent (exec (.spiWrreg 1 0x001 [0xFC, 0xE1, 0xA4, 0x8C, 0, 0]) built) =
      [[0x88, 0x01, 0xBE, 0x84, 0xFC, 0xE1, 0xA4, 0x8C, 0, 0, 0xF4, 0x2E]] := by decide +kernel

/-- What the bus answers in a read: four bytes during the command, then eight. -/
def answer (l : List Byte) : List Byte := [0xFF, 0xFF, 0xFF, 0xFF] ++ l

theorem test_spi_rdreg :
    said (exec (.spiRdreg 1 0x004) (answering (answer [0xE8, 0x9C, 0x28, 0xA0, 0x10, 0x27, 0xB5, 0xB0]))) =
      some (.done (.group [0xE8, 0x9C, 0x28, 0xA0, 0x10, 0x27] true)) ∧
    sent (exec (.spiRdreg 1 0x004) (answering (answer [0xE8, 0x9C, 0x28, 0xA0, 0x10, 0x27, 0xB5, 0xB0]))) =
      [[0x88, 0x04, 0x84, 0x28, 0xFF, 0xFF, 0xFF, 0xFF, 0xFF, 0xFF, 0xFF, 0xFF]] := by decide +kernel

theorem test_spi_rdreg_bad_pec :
    said (exec (.spiRdreg 0 0x004) (answering (answer [0xE8, 0x9C, 0x28, 0xA0, 0x10, 0x27, 0xB5, 0xB1]))) =
      some (.done (.group [0xE8, 0x9C, 0x28, 0xA0, 0x10, 0x27] false)) ∧
    said (exec (.spiRdreg 0 0x004) fresh) = some (.refused .tableNotBuilt) := by decide +kernel

/-- `built` with a microsecond clock that reads 10000 at the next reading. -/
def clocked : State :=
  { built with ports := { built.ports with clkUs := 10000, lapses := [0] } }

theorem test_spi_adcstart :
    sent (exec (.spiAdcstart 1 .gpio 3) clocked) = [[0x8D, 0xE0, 0x14, 0x6C]] ∧
    (after (exec (.spiAdcstart 1 .gpio 3) clocked)).adcReadyAt = [0, 213000] ∧
    said (exec (.spiAdcstart 0 .cell 4) clocked) = some (.refused .badOperand) := by decide +kernel

/-! ### Unit U4 (95_test_vectors 4.2, program P2) -/

theorem test_sched_setcfg :
    ((after (exec (.schedSetcfg 1 cfgExample) fresh)).sched.chips.map ChipRec.cfg) =
      [zeroFields, ⟨0x1F, 1, 0, 0x4E1, 0x8CA, 0x805, 2⟩] ∧
    said (exec (.schedSetcfg 2 cfgExample) fresh) = some (.refused .badOperand) := by decide +kernel

/-- Invocation 2 of P2: chip 1's packet arrives with a flipped bit. -/
def invocation2 : State :=
  atGroup .cvB (answer [0x51, 0x91, 0xB4, 0x91, 0x70, 0x94, 0x5A, 0xD8] ++
    answer [0x40, 0x92, 0x5A, 0x92, 0x54, 0x92, 0xE0, 0x4E])

theorem test_sched_next_bad_packet :
    said (exec .schedNext invocation2) = some (.done (.scheduled .cvB
      [⟨some ⟨37201, 37300, 38000⟩, .valid⟩, ⟨some ⟨37440, 37466, 37460⟩, .invalid⟩])) ∧
    ((after (exec .schedNext invocation2)).sched.chips.map fun r => r.pairs.cvB) =
      [⟨true, 0, ⟨some 37201, some 37300, some 38000⟩⟩, ⟨false, 1, ⟨none, none, none⟩⟩] ∧
    (after (exec .schedNext invocation2)).sched.grp = groupBits .cvC ∧
    sent (exec .schedNext invocation2) =
      [[0x80, 0x06, 0xEA, 0x80, 0xFF, 0xFF, 0xFF, 0xFF, 0xFF, 0xFF, 0xFF, 0xFF],
       [0x88, 0x06, 0x19, 0x7E, 0xFF, 0xFF, 0xFF, 0xFF, 0xFF, 0xFF, 0xFF, 0xFF]] := by decide +kernel

/-- The pre-step of program P4, operation 10, and the skipped chip of P2, invocation 4. -/
theorem test_sched_next_prestep_and_skip :
    (sent (exec .schedNext built)).take 3 =
      [[0xFF], [0x80, 0x01, 0x4D, 0x7A, 0, 0, 0, 0, 0, 0, 0xC2, 0x12],
       [0x88, 0x01, 0xBE, 0x84, 0, 0, 0, 0, 0, 0, 0xC2, 0x12]] ∧
    said (exec .schedNext (atGroup .cvD (answer [0x50, 0x91, 0xBA, 0x90, 0x58, 0x98, 0x1D, 0xC8]))) =
      some (.done (.scheduled .cvD [⟨some ⟨37200, 37050, 39000⟩, .valid⟩, ⟨none, .skipped⟩])) ∧
    (after (exec .schedNext (atGroup .auxB []))).sched.cycle = 1 := by
  refine ⟨by decide +kernel, by decide +kernel, rfl⟩

/-- 43_scheduler R210's example, with a counter of 2 on (chip 1, `CV_B`). -/
theorem test_sched_faultdata :
    said (exec .schedFaultdata { built with sched := built.sched.setPair 1 .cvB ⟨false, 2, ⟨none, none, none⟩⟩ }) =
      some (.done (.faultData 2 [0, 2] 0)) := by decide +kernel

/-! ### Unit U5 (95_test_vectors 4.3, program P3; 3.4) -/

theorem test_ctl_init :
    (after (exec (.ctlInit 1000 true) fresh)).ctl.lastOk = PerClass.const 1000 ∧
    (after (exec (.ctlInit 1000 true) fresh)).ctl.lastEval = 1000 ∧
    said (exec (.ctlInit 30 true) (started 20 false)) = some (.refused .alreadyInitialised) := by
  decide +kernel

theorem test_ctl_setchg : (after (exec (.ctlSetchg true) fresh)).ctl.chgEn = true := by decide +kernel

/-- Operation 6 of P3: balance flags and state of charge. -/
theorem test_ctl_evaluate_normal :
    let u := (after (exec (.ctlEvaluate snapN 1100 10) (started 1000 true))).ctl
    u.bal = [false, false, false, true, true, true, false, false, true, false, false, true] ∧
    u.soc = 18001 / 36000 ∧ u.lastOk = PerClass.const 1100 ∧ u.bmsOk = true := by decide +kernel

/-- The debounce example: a violation seen from 1100 on is a fault at 1601 and not at 1600. -/
theorem test_ctl_evaluate_debounce :
    (after (exec (.ctlEvaluate snapH 1600 0) (started 1100 true))).ctl.hasFault = false ∧
    (after (exec (.ctlEvaluate snapH 1601 0) (started 1100 true))).ctl.fault.ov = true ∧
    (after (exec (.ctlEvaluate snapH 1601 0) (started 1100 true))).ctl.bmsOk = false := by decide +kernel

/-! ### Unit U6 (46_latch R291, R292; P3 operations 21, 22, 24, 25) -/

theorem test_latch_update :
    (after (exec (.latchUpdate true false true) fresh)).latch = ⟨true, false, false, false, true, true⟩ ∧
    (after (exec (.latchUpdate false true false) fresh)).latch = ⟨false, true, true, true, false, false⟩ := by
  decide +kernel

/-- Latches set, every signal good again. -/
def acknowledged : State := { fresh with latch := ⟨true, false, true, true, true, true⟩ }

/-- Latches set, the shutdown signal still bad. -/
def stillBad : State := { fresh with latch := ⟨true, false, true, true, true, false⟩ }

theorem test_latch_clear :
    said (exec .latchClear acknowledged) = some (.done (.cleared true)) ∧
    (after (exec .latchClear acknowledged)).latch = LatchUnit.reset ∧
    said (exec .latchClear stillBad) = some (.done (.cleared false)) ∧
    (after (exec .latchClear stillBad)).latch = stillBad.latch := by decide +kernel

theorem test_latch_read :
    said (exec .latchRead fresh) = some (.done (.latches false false false false)) ∧
    said (exec .latchRead stillBad) = some (.done (.latches true false true true)) := by decide +kernel

/-! ### Unit U7 (47_acu_fsm R318; P3 operations 10, 17, 19, 23) -/

theorem test_fsm_enter_faulted :
    said (exec (.fsmAdvance 1602 true true true false) (inAcu .charging true false)) = some (.done
      (.advanced .faulted [.balDisable, .wdDisable, .latchAssert, .recordEntry 1602])) ∧
    (after (exec (.fsmAdvance 1602 true true true false) (inAcu .charging true false))).fsm =
      ⟨.faulted, 1602, false, true, true⟩ := by decide +kernel

theorem test_fsm_nudge_and_exit :
    said (exec (.fsmAdvance 2602 false true false false) (inAcu .faulted false true)) =
      some (.done (.advanced .faulted [])) ∧
    said (exec (.fsmAdvance 2603 false true false false) (inAcu .faulted false true)) =
      some (.done (.advanced .faulted [.wdRearm])) ∧
    said (exec (.fsmAdvance 2610 true true false false) (inAcu .faulted true true)) =
      some (.done (.advanced .startup [.latchDeassert, .wdRearm, .wdRearm])) := by decide +kernel

theorem test_wd_kick :
    (after (exec .wdKick fresh)).fsm.wdOut = true ∧
    (after (exec .wdKick fresh)).ports.trace = [.wdKick true] ∧
    exec .wdKick (inAcu .faulted false true) = .next (finish .none (inAcu .faulted false true)) := by
  refine ⟨by decide +kernel, by decide +kernel, rfl⟩

/-! ### The wire commands (95_test_vectors 3.2, 4.2) -/

theorem test_wrcfg :
    sent (exec (.wrcfg 0 1) built) = [[0x88, 0x01, 0xBE, 0x84, 0, 0, 0, 0, 0, 0, 0xC2, 0x12]] ∧
    said (exec (.wrcfg 0 2) built) = some (.refused .badOperand) := by decide +kernel

/-- The first four bytes of the read windows of P2, for chip 1. -/
theorem test_read_commands :
    ([Instr.rdcva 0 1, .rdcvb 0 1, .rdcvc 0 1, .rdcvd 0 1, .rdauxa 0 1, .rdauxb 0 1].map fun i =>
      (sent (exec i built)).map (List.take 4)) =
      [[[0x88, 0x04, 0x84, 0x28]], [[0x88, 0x06, 0x19, 0x7E]], [[0x88, 0x08, 0xDD, 0xB8]], [],
       [[0x88, 0x0C, 0x6C, 0x26]], [[0x88, 0x0E, 0xF1, 0x70]]] := by decide +kernel

/-- The packet of P2, invocation 6, chip 1: a read command alone answers it and stores nothing (10_state
R25). -/
theorem test_rdauxb_answers :
    let s := answering (answer [0x98, 0x3A, 0x30, 0x75, 0x50, 0xC3, 0x62, 0x4E])
    said (exec (.rdauxb 0 1) s) = some (.done (.packet ⟨some ⟨15000, 30000, 50000⟩, .valid⟩)) ∧
    (after (exec (.rdauxb 0 1) s)).sched = s.sched := by decide +kernel

theorem test_adc :
    sent (exec (.adc 0 1 .cell 2) clocked) = [[0x8B, 0x60, 0x77, 0x86]] ∧
    (after (exec (.adc 0 1 .cell 2) clocked)).adcReadyAt = [0, 13100] := by decide +kernel

/-! ### Fetch -/

/-- A word placed for the next step is the one that runs. -/
theorem test_withFetchWord :
    (after (step (fresh.withFetchWord 8 0x61))).fsm.wdOut = true ∧
    said (step (built.withFetchWord 16 0x8801)) = some (.done .none) ∧
    said (step (fresh.withFetchWord 8 0x7F)) = some (.refused (.unknownRequest (.unknownOpsel 0x7F))) ∧
    (after (step fresh)).outcomes = [] := by
  refine ⟨by decide +kernel, by decide +kernel, by decide +kernel, rfl⟩

/-! ### Witnesses: for each statement with hypotheses, a state and operands that meet them -/

/-- `DecodeInvertsEncode`: the default codes, an operation and a wire command. -/
theorem witness_DecodeInvertsEncode :
    conf.codes.distinct = true ∧ (Instr.spiWrreg 1 2047 [0, 0, 0, 0, 0, 0]).wf conf = true ∧
    (Instr.adc 0 1 .gpio 3).wf conf = true := by decide

/-- `built` with one request pending. -/
def asked (r : Request) : State := { built with reqs := [r] }

theorem witness_StepRunsDecodedRequest :
    (asked (.wire 0x88 0x01 0)).reqs = [.wire 0x88 0x01 0] ∧
    decode (asked (.wire 0x88 0x01 0)).conf.codes (.wire 0x88 0x01 0) = .ok (.wrcfg 0 1) := by decide

/-- `StepRunsDecodedRequest`, its last clause, and the three of `UnknownRequestRefused`: no request; a frame
with bit 7 clear at its boundary; the lowest and the highest address with code 0, and the highest code. -/
theorem witness_StepIdles_and_frames :
    built.reqs = [] ∧ (0x7F#8).toNat < 128 ∧
    (∀ b0 b1 : Byte, (asked (.wire b0 b1 0)).reqs = [.wire b0 b1 0]) ∧
    ∀ x ∈ [(0x80#8, 0x00#8, 0x000#11), (0xF8#8, 0x00#8, 0x000#11), (0xFF#8, 0xFF#8, 0x7FF#11)],
      128 ≤ x.1.toNat ∧ x.2.2.toNat = x.1.toNat % 8 * 256 + x.2.1.toNat ∧ x.2.2 ∉ defaultCodes.list :=
  ⟨rfl, by decide, fun _ _ => rfl, by simp [CmdCodes.list, defaultCodes]⟩

/-- `UnknownRequestRefused`, below the first `OPSEL` and above the last. -/
theorem witness_UnknownRequestRefused :
    (asked (.op 0x00 Operands.zero)).reqs = [.op 0x00#8 Operands.zero] ∧
    ∀ b ∈ [0x00#8, 0x62#8, 0xFF#8], b.toNat ∉
      [0x01, 0x02, 0x03, 0x10, 0x11, 0x12, 0x13, 0x14, 0x15, 0x16, 0x17, 0x20, 0x21, 0x22,
        0x23, 0x30, 0x31, 0x32, 0x40, 0x41, 0x42, 0x50, 0x51, 0x52, 0x60, 0x61] := by decide

/-- `ConfigNeverChanges`. -/
theorem witness_ConfigNeverChanges : ∃ t, step (asked (.op 0x61 Operands.zero)) = .next t := ⟨_, rfl⟩

/-- `OnlyOwnerWrites`: an operation of each unit answers a next state. -/
theorem witness_OnlyOwnerWrites :
    ∀ i ∈ [Instr.pecBuild, .codecBtemp 0, .spiWakeup 0, .schedFaultdata, .ctlSetchg true, .latchRead,
      .wdKick, .wrcfg 0 1], ∃ t, exec i built = .next t := by
  intro i _
  obtain ⟨a, h⟩ := exec_concludes i built
  exact ⟨_, h⟩

/-- `RefusedBeforeBuild`: the table is not built after reset. -/
theorem witness_RefusedBeforeBuild :
    fresh.pec.tableValid = false ∧ unitOf (.rdcva 0 0) = .wire := by decide

/-- `OperandsOutOfRangeRefused`, one operand just out of range for each reason. -/
theorem witness_OperandsOutOfRangeRefused :
    built.pec.tableValid = true ∧ (Instr.codecCmd 16 0).wf built.conf = false ∧
    (Instr.codecCfgpack { zeroArg with dcto := 16 }).wf built.conf = false ∧
    (Instr.spiWakeup 1).wf built.conf = false ∧ (Instr.rdcva 0 2).wf built.conf = false ∧
    unitOf (.rdcva 0 2) = .wire ∧ (Instr.codecCfgunpack [0, 0, 0, 0, 0]).wf built.conf = false ∧
    (Instr.codecGrpunpack []).wf built.conf = false ∧ (Instr.codecCmpv 4096 0).wf built.conf = false ∧
    (Instr.spiWrreg 2 0 [0, 0, 0, 0, 0, 0]).wf built.conf = false ∧
    (Instr.spiRdreg 0 2048).wf built.conf = false ∧ (Instr.spiAdcstart 0 .cell 4).wf built.conf = false ∧
    (Instr.schedSetcfg 2 zeroArg).wf built.conf = false := by decide

/-- `EvaluateRefusals`: before `CTL.INIT`; one millisecond early; each excluded divisor; a snapshot of no
cell; and a tick at the very time of the last. -/
theorem witness_EvaluateRefusals :
    fresh.ctl.ready = false ∧ (started 20 false).ctl.ready = true ∧ 19 < (started 20 false).ctl.lastEval ∧
    { ctlP3 with irCellCount := 0 }.irCellCount = 0 ∧ { ctlP3 with capacityAh := 0 }.capacityAh ≤ 0 ∧
    (started 20 false).ctl.lastEval ≤ 20 ∧ 0 < (started 20 false).conf.ctl.irCellCount ∧
    0 < (started 20 false).conf.ctl.capacityAh ∧
    Snapshot.zero.cellV.length ≠ (started 20 false).conf.nCellsTotal := by decide +kernel

/-- `started` with a controller configuration that has no divisor, and the host's verdict `cfgOk` on it. -/
def noDivisor (cfgOk : Bool) : State :=
  { started 20 false with
    conf := { (started 20 false).conf with ctl := { ctlP3 with irCellCount := 0, capacityAh := 0 } }
    ctl := { (started 20 false).ctl with cfgOk := cfgOk } }

theorem witness_EvaluateRefusals_divisor :
    ∀ ok : Bool, (noDivisor ok).ctl.ready = true ∧ (noDivisor ok).ctl.lastEval ≤ 20 ∧
      (noDivisor ok).ctl.cfgOk = ok ∧ (noDivisor ok).conf.ctl.irCellCount = 0 ∧
      (noDivisor ok).conf.ctl.capacityAh ≤ 0 ∧ snapN.cellV.length = (noDivisor ok).conf.nCellsTotal := by
  decide +kernel

/-- A tick with the configuration fault standing is done whatever the divisors (44_fault_comparator R247). -/
theorem witness_evaluable_standing_fault : evaluable snapN 20 (noDivisor false) :=
  ⟨rfl, by decide, fun h => (by cases h), by decide⟩

/-- `EvaluateFaults`, `EvaluateBmsOk`, `EvaluateBalance`, `EvaluateSoc` and the last clause of
`EvaluateRefusals`. -/
theorem witness_evaluable : evaluable snapN 1000 (started 1000 true) :=
  ⟨rfl, by decide, fun _ => ⟨by decide, by decide +kernel⟩, by decide⟩

/-- `EvaluateFaults`: a class that is violated and one that is not. -/
theorem witness_EvaluateFaults :
    violated ctlP3 false snapH 0 .ov ∧ ¬ violated ctlP3 false snapH 0 .uv := by
  constructor
  · rw [← violations_get]; decide +kernel
  · rw [← violations_get]; decide +kernel

/-- `EvaluateBalance`: a cell of the snapshot, and the gate in both positions. -/
theorem witness_EvaluateBalance :
    snapN.cellV[11]? = some (390 / 100) ∧ (started 1000 true).ctl.balTempOk = false ∧
    { (started 1000 true).ctl with balTempOk := true }.balTempOk = true := by decide +kernel

/-- `EvaluateBmsOk`: a tick with a fault, and one without. -/
theorem witness_EvaluateBmsOk :
    (evaluateTick ctlP3 snapH 1601 0 (started 1100 true).ctl).hasFault = true ∧
    (evaluateTick ctlP3 snapN 1601 0 (started 1100 true).ctl).hasFault = false := by decide +kernel

/-- `AdvanceRefusesTimeBackwards`: one millisecond before entry. -/
theorem witness_AdvanceRefusesTimeBackwards :
    (inAcu .faulted false true).fsm.state = .faulted ∧ 1601 < (inAcu .faulted false true).fsm.faultEntry := by
  decide

/-- `PecComputeIsBitSerial`. -/
theorem witness_PecComputeIsBitSerial : tableSound built ∧ built.pec.tableValid = true :=
  ⟨fun _ => rfl, rfl⟩

/-- `PecCheckNeedsBothBytes`: with and without the table. -/
theorem witness_PecCheckNeedsBothBytes : built.pec.tableValid = true ∧ fresh.pec.tableValid = false :=
  ⟨rfl, rfl⟩

/-- `PecAlgebra`: two sequences of one length. -/
theorem witness_PecAlgebra : [0x00#8, 0x01#8].length = [0x98#8, 0x04#8].length := rfl

/-- `SingleBitFlipRejected`: the last bit of the last byte. -/
theorem witness_SingleBitFlipRejected : 7 < 8 ∧ 0 < 8 := by decide

/-- `CfgUnpackFields`, and `CfgPackBytes`: the layout of 30_encoding R99 to R103, another valid one (the
fields of byte 0 turned round), every field at its largest value, and one field past it. -/
theorem witness_CfgPackBytes :
    fresh.conf.layout = defaultLayout ∧ defaultLayout.valid = true ∧
    { defaultLayout with gpioEnable := [0, 1, 2, 3, 4], refon := [5], adcopt := [6] }.valid = true ∧
    CfgArg.inRange ⟨31, 1, 1, 4095, 4095, 4095, 15⟩ = true ∧
    CfgArg.inRange ⟨32, 1, 1, 4095, 4095, 4095, 15⟩ = false := by decide

/-- `CfgUnpackFields` and `GrpUnpackCodes`: one byte short. -/
theorem witness_unpack_length : [0x00#8, 0, 0, 0, 0].length ≠ 6 := by decide

/-- `ThermistorValue`: the ends of the range in which the formula has a value. -/
theorem witness_ThermistorValue :
    1 ≤ (0x0001#16).toNat ∧ (0x0001#16).toNat < 50000 ∧ (49999#16).toNat < 50000 := by decide

/-- `WakeupActivity`: a line in use and one that is not. -/
theorem witness_WakeupActivity :
    linesHigh built ∧ (∃ ch ∈ built.conf.chips, ch.csLine = 0) ∧
    (∀ ch ∈ built.conf.chips, ch.csLine ≠ 1) := by decide

/-- `WrregFrame`, `RdregGroup` and `AdcstartFrame`: the largest command code and mode, the last chip. -/
theorem witness_transport :
    (answering (answer [1, 2, 3, 4, 5, 6, 7, 8])).pec.tableValid = true ∧
    linesHigh (answering (answer [1, 2, 3, 4, 5, 6, 7, 8])) ∧
    (answering (answer [1, 2, 3, 4, 5, 6, 7, 8])).conf.chips[1]? = some chip1 ∧ 2047 < 2048 ∧ 3 < 4 ∧
    (busAnswer (answering (answer [1, 2, 3, 4, 5, 6, 7, 8])).ports 12).drop 4 =
      (Six.mk 1 2 3 4 5 6).toList ++ [7, 8] := by
  refine ⟨rfl, rfl, rfl, by decide, by decide, rfl⟩

/-- `SetcfgImage`: the last chip, the first id past it, a record past its widths. -/
theorem witness_SetcfgImage :
    storesSized built ∧ 1 < built.conf.nChips ∧ built.conf.nChips ≤ 2 ∧ cfgExample.inRange = true ∧
    CfgArg.inRange { zeroArg with refon := 2 } = false := by decide

/-- `NextIsItsWireCommands`, `NextAdvances` and, for group `CV_D` of chip 1, `NextSkipsEmptyGroups`. -/
theorem witness_next :
    (atGroup .cvD []).pec.tableValid = true ∧ (atGroup .cvD []).sched.grp = groupBits .cvD ∧
    distinctChips (atGroup .cvD []).conf.chips = true ∧ (∃ t, exec .schedNext (atGroup .cvD []) = .next t) ∧
    (atGroup .cvD []).conf.chips[1]? = some chip1 ∧ chip1.kind.get .cvD = ⟨.none, .none, .none⟩ := by
  refine ⟨rfl, rfl, by decide, ?_, rfl, rfl⟩
  obtain ⟨a, h⟩ := exec_concludes .schedNext (atGroup .cvD [])
  exact ⟨_, h⟩

/-- `NextUpdatesPairs`: chip 1 at `AUX_B`, the last group. -/
theorem witness_NextUpdatesPairs :
    (atGroup .auxB []).pec.tableValid = true ∧ (atGroup .auxB []).sched.grp = groupBits .auxB ∧
    storesSized (atGroup .auxB []) ∧ (atGroup .auxB []).conf.chips[1]? = some chip1 ∧
    chip1.kind.get .auxB ≠ ⟨.none, .none, .none⟩ := by
  refine ⟨rfl, rfl, by decide, rfl, by decide⟩

/-- `NextRestartsOnImpossibleGroup`: the lowest value that names no group. -/
theorem witness_NextRestartsOnImpossibleGroup :
    let s := { built with sched := { built.sched with grp := 6#3 } }
    s.pec.tableValid = true ∧ 6 ≤ s.sched.grp.toNat := by decide

/-- `RefreshTakesSixInvocations`. -/
theorem witness_RefreshTakesSixInvocations :
    built.pec.tableValid = true ∧ built.sched.grp.toNat < 6 ∧ built.sched.grp = 0#3 := ⟨rfl, by decide, rfl⟩

/-- `InitStartsTimers`: both cases. -/
theorem witness_InitStartsTimers :
    fresh.ctl.ready = false ∧ (started 20 false).ctl.ready = true := by decide

/-- `LatchRemembersFalseSignal`: a run that latches, fails to clear, and clears. -/
theorem witness_LatchRemembersFalseSignal :
    fresh.latch = ⟨false, false, false, true, true, true⟩ ∧
    ∃ t, execAll [.latchUpdate true false true, .latchClear, .latchUpdate true true true, .latchClear]
      fresh = some t := ⟨rfl, _, rfl⟩

/-- `SupervisorTransitions`: a tick outside `FAULTED`, and one in it at the very time of entry. -/
theorem witness_SupervisorTransitions :
    ¬ ((inAcu .active true false).fsm.state = .faulted ∧ 0 < (inAcu .active true false).fsm.faultEntry) ∧
    ¬ ((inAcu .faulted false true).fsm.state = .faulted ∧
      1602 < (inAcu .faulted false true).fsm.faultEntry) := by decide

/-- `EntryToFaulted`: from `CHARGING`, and from `ACTIVE` without a charge request. -/
theorem witness_EntryToFaulted :
    (inAcu .charging true false).fsm.state = .charging ∧ (inAcu .active true false).fsm.state = .active := by
  decide

/-- `ExitFromFaulted` and `FaultedSelfLoop`, at the very time of entry. -/
theorem witness_faulted :
    (inAcu .faulted false true).fsm.state = .faulted ∧ (inAcu .faulted false true).fsm.faultEntry ≤ 1602 := by
  decide

/-- `ChargingEntryAndExit`: each state it starts from. -/
theorem witness_ChargingEntryAndExit :
    ∀ st ∈ [AcuState.startup, .active, .charging], (inAcu st true false).fsm.state = st := by decide

/-- `ReadCommandsReadTheirGroup`: chip 1, a group it has and the one it skips. -/
theorem witness_ReadCommandsReadTheirGroup :
    let s := answering (answer [0x98, 0x3A, 0x30, 0x75, 0x50, 0xC3, 0x62, 0x4E])
    s.pec.tableValid = true ∧ linesHigh s ∧ distinctChips s.conf.chips = true ∧
    s.conf.chips[1]? = some chip1 ∧ (busAnswer s.ports 12).drop 4 =
      (Six.mk 0x98 0x3A 0x30 0x75 0x50 0xC3).toList ++ [0x62, 0x4E] ∧
    chip1.kind.get .auxB ≠ ⟨.none, .none, .none⟩ ∧ chip1.kind.get .cvD = ⟨.none, .none, .none⟩ := by
  refine ⟨rfl, rfl, by decide, rfl, rfl, by decide, rfl⟩

/-- `WrcfgAndAdcCommands`. -/
theorem witness_WrcfgAndAdcCommands :
    built.pec.tableValid = true ∧ linesHigh built ∧ distinctChips built.conf.chips = true ∧
    built.conf.chips[1]? = some chip1 := ⟨rfl, rfl, by decide, rfl⟩

/-- `StepKeepsBusDiscipline` and `StepKeepsFramesSound`: a block about to send. -/
theorem witness_StepKeepsBus :
    let s := asked (.op 0x31 Operands.zero)
    busDisciplined s ∧ linesHigh s ∧ tableSound s ∧ framesSound s ∧ ∃ t, step s = .next t := by
  refine ⟨rfl, rfl, fun _ => rfl, fun f hf => (by cases hf), ?_⟩
  obtain ⟨a, h⟩ := exec_concludes .schedNext (fetched [] (asked (.op 0x31 Operands.zero)))
  exact ⟨_, h⟩

/-- `StepKeepsControllerSound` and `StepKeepsOutputsSound`: a controller tick and a supervisor tick. -/
theorem witness_StepKeepsController :
    let s := { started 0 true with reqs := [.op 0x60 Operands.zero] }
    socInRange s ∧ bmsOkSound s ∧ timesSound s ∧ outputsSound s ∧ latchesSound s ∧
      ∃ t, step s = .next t := by
  refine ⟨by decide +kernel, by decide, by decide, by decide, by decide, _, rfl⟩

/-- `StepKeepsSchedulerSound`: a block about to read every chip. -/
theorem witness_StepKeepsSchedulerSound :
    let s := asked (.op 0x31 Operands.zero)
    groupLegal s ∧ storesSized s ∧ countersSound s ∧ slotsSound s ∧ skippedUntouched s ∧
      ∃ t, step s = .next t := by
  have hp : ∀ c g, (asked (.op 0x31 Operands.zero)).sched.pair c g = Pair.reset := by
    intro c g
    match c with
    | 0 => cases g <;> rfl
    | 1 => cases g <;> rfl
    | n + 2 => cases g <;> rfl
  refine ⟨by decide, by decide, ?_, ?_, fun c ch _ g _ => hp c g, ?_⟩
  · intro c _ g _ h
    rw [hp] at h
    cases h
  · intro c ch _ g
    rw [hp]
    exact ⟨fun _ => rfl, fun _ => rfl, fun _ => rfl⟩
  · obtain ⟨a, h⟩ := exec_concludes .schedNext (fetched [] (asked (.op 0x31 Operands.zero)))
    exact ⟨_, h⟩

/-- `ResetMeetsInvariants`: a parameter at each end of the range. -/
theorem witness_ResetMeetsInvariants :
    0 ≤ { ctlP3 with socInit := 0 }.socInit ∧ { ctlP3 with socInit := 1 }.socInit ≤ 1 ∧
    0 ≤ conf.ctl.socInit ∧ conf.ctl.socInit ≤ 1 := by decide +kernel

end Sys2Proof.Tests
end

section
/-! PROOFS. Scope (00_scope): every operation is done or refused. -/

namespace Sys2Proof.Proofs

open Sys2Proof Sys2Proof.Machine

/-! ### What an answer leaves behind -/

/-- If the answer is done, the state it leaves satisfies `P`; a refusal leaves no state of its own. -/
def Leaves (P : State → Prop) (a : Answer) : Prop := ∀ r t, a = .ok (r, t) → P t

theorem Leaves.done {P : State → Prop} {t : State} (r : Result) (h : P t) : Leaves P (.ok (r, t)) := by
  rintro _ _ ⟨⟩
  exact h

theorem Leaves.refused (P : State → Prop) (why : RefusalReason) : Leaves P (.error why) :=
  fun _ _ h => nomatch h

/-- A precondition or an operand form in front of an answer only adds refusals. -/
theorem Leaves.bind {P : State → Prop} {α : Type} {e : Except RefusalReason α} {f : α → Answer}
    (h : ∀ x, Leaves P (f x)) : Leaves P (e >>= f) := by
  cases e with
  | ok x => exact h x
  | error why => exact .refused P why

/-! ### The part of the state that no operation writes -/

/-- The parameters, the pending requests, the record of outcomes with its sticky mark, and the undriven
port are the same in both states. -/
structure SameHostSide (s t : State) : Prop where
  conf : t.conf = s.conf
  reqs : t.reqs = s.reqs
  outcomes : t.outcomes = s.outcomes
  refusalMark : t.refusalMark = s.refusalMark
  okOut : t.okOut = s.okOut

theorem SameHostSide.refl (s : State) : SameHostSide s s := ⟨rfl, rfl, rfl, rfl, rfl⟩

theorem SameHostSide.trans {s t u : State} (h : SameHostSide s t) (k : SameHostSide t u) :
    SameHostSide s u :=
  ⟨k.conf.trans h.conf, k.reqs.trans h.reqs, k.outcomes.trans h.outcomes,
    k.refusalMark.trans h.refusalMark, k.okOut.trans h.okOut⟩

/-- Writes to the draw counter, the ports and the units leave the host's side alone. -/
theorem SameHostSide.of_unit_writes (s : State) (draws : Nat) (ports : Ports) (pec : PecUnit)
    (adcReadyAt : List Nat) (sched : SchedUnit) (ctl : CtlUnit) (latch : LatchUnit) (fsm : FsmUnit) :
    SameHostSide s { s with draws := draws, ports := ports, pec := pec, adcReadyAt := adcReadyAt,
                            sched := sched, ctl := ctl, latch := latch, fsm := fsm } :=
  ⟨rfl, rfl, rfl, rfl, rfl⟩

/-! ### The supervisor's transitions -/

theorem sameHostSide_applyAction (a : Action) (s : State) : SameHostSide s (applyAction a s) := by
  rw [applyAction_frame]
  exact .of_unit_writes ..

theorem sameHostSide_applyActions (l : List Action) (s : State) : SameHostSide s (applyActions l s) := by
  induction l generalizing s with
  | nil => exact .refl s
  | cons a rest ih => exact (sameHostSide_applyAction a s).trans (ih (applyAction a s))

theorem sameHostSide_moveTo (n : AcuState) (now : Nat) (s : State) : SameHostSide s (moveTo n now s) := by
  have hexit := sameHostSide_applyActions (exitActions s.fsm.state) s
  have hset : ∀ t : State, SameHostSide t (t.setAcuState n) := fun t => .of_unit_writes ..
  exact (hexit.trans (hset _)).trans (sameHostSide_applyActions (entryActions now n) _)

theorem sameHostSide_tickState (n : AcuState) (now : Nat) (bmsFault : Bool) (s : State) :
    SameHostSide s (tickState n now bmsFault s) := by
  unfold tickState
  split_ifs
  · exact sameHostSide_applyActions _ s
  · exact sameHostSide_moveTo .faulted now s
  · exact sameHostSide_moveTo .startup now s
  · exact sameHostSide_moveTo n now s

theorem sameHostSide_kickWatchdog (s : State) : SameHostSide s (kickWatchdog s) := by
  unfold kickWatchdog
  split_ifs
  · exact .of_unit_writes ..
  · exact .refl s

/-! ### Every operation -/

/-- A wire command that reads a group writes the ports only. -/
theorem leaves_readCommand (g : ReadGroup) (line : Nat) (addr : BitVec 4) (s : State) :
    Leaves (SameHostSide s) (readCommand g line addr s) :=
  .bind fun _ => .bind fun _ => .done _ (.of_unit_writes ..)

/-- `SCHED.NEXT` in its two cases: a round over the chips, and the restart of an illegal `GRP`. -/
theorem execSchedNext_leaves (s : State) :
    ∃ a, execSchedNext s = conclude s a ∧ Leaves (SameHostSide s) a := by
  refine ⟨_, rfl, .bind fun _ => ?_⟩
  split
  · exact .done _ (.of_unit_writes ..)
  · exact .done _ (.of_unit_writes ..)

/-- Every operation concludes an answer, and its own writes leave the host's side of the state alone. -/
theorem exec_leaves_sameHostSide (i : Instr) (s : State) :
    ∃ a, exec i s = conclude s a ∧ Leaves (SameHostSide s) a := by
  cases i with
  | pecBuild => exact ⟨.ok _, rfl, .done _ (.of_unit_writes ..)⟩
  | pecCompute data => exact ⟨_, rfl, .bind fun _ => .done _ (.refl s)⟩
  | pecCheck data rx0 rx1 => exact ⟨_, rfl, .bind fun _ => .done _ (.refl s)⟩
  | codecCmd addr cc => exact ⟨_, rfl, .bind fun _ => .bind fun _ => .done _ (.refl s)⟩
  | codecCfgpack f => exact ⟨_, rfl, .bind fun _ => .done _ (.refl s)⟩
  | codecCfgunpack data => exact ⟨_, rfl, .bind fun _ => .done _ (.refl s)⟩
  | codecGrpunpack data => exact ⟨_, rfl, .bind fun _ => .done _ (.refl s)⟩
  | codecCmpv vuv vov => exact ⟨_, rfl, .bind fun _ => .bind fun _ => .done _ (.refl s)⟩
  | codecBtemp code => exact ⟨.ok _, rfl, .done _ (.refl s)⟩
  | codecHumid code => exact ⟨.ok _, rfl, .done _ (.refl s)⟩
  | codecTherm code => exact ⟨.ok _, rfl, .done _ (.of_unit_writes ..)⟩
  | spiWakeup line => exact ⟨_, rfl, .bind fun _ => .done _ (.of_unit_writes ..)⟩
  | spiWrreg c cc data =>
    exact ⟨_, rfl, .bind fun _ => .bind fun _ => .bind fun _ => .bind fun _ => .done _ (.of_unit_writes ..)⟩
  | spiRdreg c cc =>
    exact ⟨_, rfl, .bind fun _ => .bind fun _ => .bind fun _ => .done _ (.of_unit_writes ..)⟩
  | spiAdcstart c kind mode =>
    exact ⟨_, rfl, .bind fun _ => .bind fun _ => .bind fun _ => .done _ (.of_unit_writes ..)⟩
  | schedSetcfg c f => exact ⟨_, rfl, .bind fun _ => .bind fun _ => .done _ (.of_unit_writes ..)⟩
  | schedNext => exact execSchedNext_leaves s
  | schedFaultdata => exact ⟨.ok _, rfl, .done _ (.refl s)⟩
  | ctlInit now cfgOk => exact ⟨_, rfl, .bind fun _ => .done _ (.of_unit_writes ..)⟩
  | ctlSetchg en => exact ⟨.ok _, rfl, .done _ (.of_unit_writes ..)⟩
  | ctlEvaluate snap now packCurrent =>
    exact ⟨_, rfl, .bind fun _ => .bind fun _ => .bind fun _ => .bind fun _ => .done _ (.of_unit_writes ..)⟩
  | latchUpdate imdOk bmsOk shdnValid => exact ⟨.ok _, rfl, .done _ (.of_unit_writes ..)⟩
  | latchClear => exact ⟨.ok _, rfl, .done _ (.of_unit_writes ..)⟩
  | latchRead => exact ⟨.ok _, rfl, .done _ (.refl s)⟩
  | fsmAdvance now shdn chg bms imd =>
    exact ⟨_, rfl, .bind fun _ => .done _ (sameHostSide_tickState _ now bms s)⟩
  | wdKick => exact ⟨.ok _, rfl, .done _ (sameHostSide_kickWatchdog s)⟩
  | wrcfg line addr => exact ⟨_, rfl, .bind fun _ => .bind fun _ => .done _ (.of_unit_writes ..)⟩
  | rdcva line addr => exact ⟨_, rfl, leaves_readCommand .cvA line addr s⟩
  | rdcvb line addr => exact ⟨_, rfl, leaves_readCommand .cvB line addr s⟩
  | rdcvc line addr => exact ⟨_, rfl, leaves_readCommand .cvC line addr s⟩
  | rdcvd line addr => exact ⟨_, rfl, leaves_readCommand .cvD line addr s⟩
  | rdauxa line addr => exact ⟨_, rfl, leaves_readCommand .auxA line addr s⟩
  | rdauxb line addr => exact ⟨_, rfl, leaves_readCommand .auxB line addr s⟩
  | adc line addr kind mode => exact ⟨_, rfl, .bind fun _ => .bind fun _ => .done _ (.of_unit_writes ..)⟩

/-- The two outcomes of 00_scope R13: done, the operation's writes leaving the host's side alone, or
refused. -/
theorem exec_done_or_refused (i : Instr) (s : State) :
    (∃ r t, SameHostSide s t ∧ exec i s = .next (finish r t)) ∨
      (∃ why, exec i s = .next (refuse why s)) := by
  obtain ⟨a, hexec, hleaves⟩ := exec_leaves_sameHostSide i s
  rcases conclude_cases s a with ⟨r, t, ha, hc⟩ | ⟨why, -, hc⟩
  · exact .inl ⟨r, t, hleaves r t ha, hexec.trans hc⟩
  · exact .inr ⟨why, hexec.trans hc⟩

/-- No step stops the block (60_exceptions R340). -/
theorem step_next (s : State) : ∃ t, step s = .next t := by
  rcases step_cases s with ⟨-, hidle⟩ | ⟨r, rest, i, -, -, hrun⟩ | ⟨r, rest, why, -, -, hunknown⟩
  · exact ⟨_, hidle⟩
  · obtain ⟨a, ha⟩ := exec_concludes i (fetched rest s)
    exact ⟨_, hrun.trans ha⟩
  · exact ⟨_, hunknown⟩

/-- Settles O5: a step always answers a next state, and a done operation's writes leave the record that
`finish` appends to. -/
theorem doneOrRefused : Obligations.DoneOrRefused := by
  refine ⟨step_next, fun i s => ?_⟩
  rcases exec_done_or_refused i s with ⟨r, t, hsame, hdone⟩ | ⟨why, hrefused⟩
  · refine .inl ⟨r, t, hsame.outcomes, hsame.refusalMark, ?_⟩
    rw [hdone, finish, hsame.outcomes]
  · exact .inr ⟨why, hrefused⟩

end Sys2Proof.Proofs
end

section
/-! PROOFS. The state (10_state): which unit writes which element, what reset leaves, and the scheduler's
store under every step. -/

namespace Sys2Proof.Proofs

open Sys2Proof Sys2Proof.Machine Sys2Proof.Safety

/-! ### What the operations of a unit may write (10_state R21) -/

/-- The states that the writes of an operation of a unit can leave: the owner's elements, the ports where
the unit drives them, and for U7 also `CHG_EN`. `ADC_READY_AT` keeps its length, and `BAL` the length it
should have. -/
inductive Writes (s : State) : UnitId → State → Prop where
  | u1 (pec : PecUnit) : Writes s .u1 { s with pec := pec }
  | u2 (draws : Nat) : Writes s .u2 { s with draws := draws }
  | u3 (ports : Ports) (adcReadyAt : List Nat) (hlen : adcReadyAt.length = s.adcReadyAt.length) :
      Writes s .u3 { s with ports := ports, adcReadyAt := adcReadyAt }
  | u4 (sched : SchedUnit) (ports : Ports) : Writes s .u4 { s with sched := sched, ports := ports }
  | u5 (ctl : CtlUnit)
      (hbal : s.ctl.bal.length = s.conf.nCellsTotal → ctl.bal.length = s.conf.nCellsTotal) :
      Writes s .u5 { s with ctl := ctl }
  | u6 (latch : LatchUnit) : Writes s .u6 { s with latch := latch }
  | u7 (chgEn : Bool) (fsm : FsmUnit) (ports : Ports) :
      Writes s .u7 { s with ctl := { s.ctl with chgEn := chgEn }, fsm := fsm, ports := ports }
  | wire (ports : Ports) (adcReadyAt : List Nat) (hlen : adcReadyAt.length = s.adcReadyAt.length) :
      Writes s .wire { s with ports := ports, adcReadyAt := adcReadyAt }

/-- An operation may also write nothing. -/
theorem Writes.refl (s : State) (u : UnitId) : Writes s u s := by
  cases u with
  | u1 => exact .u1 s.pec
  | u2 => exact .u2 s.draws
  | u3 => exact .u3 s.ports s.adcReadyAt rfl
  | u4 => exact .u4 s.sched s.ports
  | u5 => exact .u5 s.ctl id
  | u6 => exact .u6 s.latch
  | u7 => exact .u7 s.ctl.chgEn s.fsm s.ports
  | wire => exact .wire s.ports s.adcReadyAt rfl

theorem Writes.trans_u7 {s t v : State} (h : Writes s .u7 t) (k : Writes t .u7 v) : Writes s .u7 v := by
  cases h
  cases k
  exact .u7 ..

/-! ### The writes of the supervisor -/

theorem writes_applyActions (l : List Action) (s : State) : Writes s .u7 (applyActions l s) := by
  induction l generalizing s with
  | nil => exact .refl s .u7
  | cons a rest ih =>
    have hfirst : Writes s .u7 (applyAction a s) := by
      rw [applyAction_frame]
      exact .u7 ..
    exact hfirst.trans_u7 (ih (applyAction a s))

theorem writes_moveTo (n : AcuState) (now : Nat) (s : State) : Writes s .u7 (moveTo n now s) := by
  have hexit := writes_applyActions (exitActions s.fsm.state) s
  have hset : ∀ t : State, Writes t .u7 (t.setAcuState n) :=
    fun t => .u7 t.ctl.chgEn { t.fsm with state := n } t.ports
  exact (hexit.trans_u7 (hset _)).trans_u7 (writes_applyActions (entryActions now n) _)

theorem writes_tickState (n : AcuState) (now : Nat) (bmsFault : Bool) (s : State) :
    Writes s .u7 (tickState n now bmsFault s) := by
  unfold tickState
  split_ifs
  · exact writes_applyActions _ s
  · exact writes_moveTo .faulted now s
  · exact writes_moveTo .startup now s
  · exact writes_moveTo n now s

theorem writes_kickWatchdog (s : State) : Writes s .u7 (kickWatchdog s) := by
  unfold kickWatchdog
  split_ifs
  · exact .u7 s.ctl.chgEn ..
  · exact .refl s .u7

/-! ### The writes of every operation -/

/-- Behind a precondition an answer may rely on it. -/
theorem Leaves.require {P : State → Prop} {cond : Bool} {why : RefusalReason} {f : Unit → Answer}
    (h : cond = true → Leaves P (f ())) : Leaves P (Machine.require cond why >>= f) := by
  cases cond with
  | true => exact h rfl
  | false => exact .refused P why

/-- A tick that is done leaves one balance flag for each cell of its snapshot, and so one for each cell. -/
theorem leaves_writes_ctlEvaluate (snap : Snapshot) (now : Nat) (packCurrent : Rat) (s : State) :
    ∃ a, execCtlEvaluate snap now packCurrent s = conclude s a ∧ Leaves (Writes s .u5) a := by
  refine ⟨_, rfl, .require fun _ => .require fun _ => .require fun _ => .require fun hcells => ?_⟩
  have hlen : snap.cellV.length = s.conf.nCellsTotal := beq_iff_eq.mp hcells
  refine .done _ (.u5 _ fun _ => ?_)
  rw [evaluateTick_eq, List.length_map, hlen]

theorem leaves_writes_readCommand (g : ReadGroup) (line : Nat) (addr : BitVec 4) (s : State) :
    Leaves (Writes s .wire) (readCommand g line addr s) :=
  .bind fun _ => .bind fun _ => .done _ (.wire _ s.adcReadyAt rfl)

/-- `SCHED.NEXT` in its two cases: a round over the chips, and the restart of an illegal `GRP`. -/
theorem leaves_writes_schedNext (s : State) :
    ∃ a, execSchedNext s = conclude s a ∧ Leaves (Writes s .u4) a := by
  refine ⟨_, rfl, .bind fun _ => ?_⟩
  split
  · exact .done _ (.u4 ..)
  · exact .done _ (.u4 _ s.ports)

/-- Every operation concludes an answer whose writes are its unit's. -/
theorem exec_leaves_writes (i : Instr) (s : State) :
    ∃ a, exec i s = conclude s a ∧ Leaves (Writes s (unitOf i)) a := by
  cases i with
  | pecBuild => exact ⟨.ok _, rfl, .done _ (.u1 _)⟩
  | codecTherm _ => exact ⟨.ok _, rfl, .done _ (.u2 _)⟩
  | codecBtemp _ | codecHumid _ | schedFaultdata | latchRead =>
    exact ⟨.ok _, rfl, .done _ (.refl s _)⟩
  | pecCompute _ | pecCheck _ _ _ | codecCfgpack _ | codecCfgunpack _ | codecGrpunpack _ =>
    exact ⟨_, rfl, .bind fun _ => .done _ (.refl s _)⟩
  | codecCmd _ _ | codecCmpv _ _ => exact ⟨_, rfl, .bind fun _ => .bind fun _ => .done _ (.refl s _)⟩
  | spiWakeup _ => exact ⟨_, rfl, .bind fun _ => .done _ (.u3 _ s.adcReadyAt rfl)⟩
  | spiWrreg _ _ _ =>
    exact ⟨_, rfl, .bind fun _ => .bind fun _ => .bind fun _ => .bind fun _ =>
      .done _ (.u3 _ s.adcReadyAt rfl)⟩
  | spiRdreg _ _ =>
    exact ⟨_, rfl, .bind fun _ => .bind fun _ => .bind fun _ => .done _ (.u3 _ s.adcReadyAt rfl)⟩
  | spiAdcstart _ _ _ =>
    exact ⟨_, rfl, .bind fun _ => .bind fun _ => .bind fun _ => .done _ (.u3 _ _ List.length_set)⟩
  | schedSetcfg _ _ => exact ⟨_, rfl, .bind fun _ => .bind fun _ => .done _ (.u4 _ s.ports)⟩
  | schedNext => exact leaves_writes_schedNext s
  | ctlInit _ _ => exact ⟨_, rfl, .bind fun _ => .done _ (.u5 _ id)⟩
  | ctlSetchg en => exact ⟨.ok _, rfl, .done _ (.u5 { s.ctl with chgEn := en } id)⟩
  | ctlEvaluate snap now packCurrent => exact leaves_writes_ctlEvaluate snap now packCurrent s
  | latchUpdate _ _ _ | latchClear => exact ⟨.ok _, rfl, .done _ (.u6 _)⟩
  | fsmAdvance now _ _ bmsFault _ =>
    exact ⟨_, rfl, .bind fun _ => .done _ (writes_tickState _ now bmsFault s)⟩
  | wdKick => exact ⟨.ok _, rfl, .done _ (writes_kickWatchdog s)⟩
  | wrcfg _ _ => exact ⟨_, rfl, .bind fun _ => .bind fun _ => .done _ (.wire _ s.adcReadyAt rfl)⟩
  | rdcva line addr | rdcvb line addr | rdcvc line addr | rdcvd line addr | rdauxa line addr
  | rdauxb line addr => exact ⟨_, rfl, leaves_writes_readCommand _ line addr s⟩
  | adc _ _ _ _ => exact ⟨_, rfl, .bind fun _ => .bind fun _ => .done _ (.wire _ _ List.length_set)⟩

/-- An operation records its outcome, over the writes of its answer if it is done and over nothing if it is
refused. -/
theorem Leaves.of_exec {P : State → Prop} {i : Instr} {s t : State}
    (hi : ∃ a, exec i s = conclude s a ∧ Leaves P a) (h : exec i s = .next t) :
    (∃ r v, P v ∧ t = finish r v) ∨ ∃ why, t = refuse why s := by
  obtain ⟨a, hexec, hleaves⟩ := hi
  rcases conclude_cases s a with ⟨r, v, ha, hc⟩ | ⟨why, -, hc⟩
  · exact .inl ⟨r, v, hleaves r v ha, Host.Outcome.next.inj (h.symm.trans (hexec.trans hc))⟩
  · exact .inr ⟨why, Host.Outcome.next.inj (h.symm.trans (hexec.trans hc))⟩

/-! ### Each element has one owner (10_state R21) -/

/-- 10_state R21, element by element, for a change of state by unit `u`. -/
structure OwnerFrame (u : UnitId) (s t : State) : Prop where
  pec : u ≠ .u1 → t.pec = s.pec
  adcReadyAt : u ≠ .u3 → u ≠ .wire → t.adcReadyAt = s.adcReadyAt
  sched : u ≠ .u4 → t.sched = s.sched
  ctl : u ≠ .u5 → u ≠ .u7 → t.ctl = s.ctl
  ctl_u7 : u = .u7 → t.ctl = { s.ctl with chgEn := t.ctl.chgEn }
  latch : u ≠ .u6 → t.latch = s.latch
  fsm : u ≠ .u7 → t.fsm = s.fsm
  ports : u = .u1 ∨ u = .u2 ∨ u = .u5 ∨ u = .u6 → t.ports = s.ports

theorem Writes.ownerFrame {u : UnitId} {s t : State} (h : Writes s u t) : OwnerFrame u s t where
  pec h1 := by
    cases h with
    | u1 => exact absurd rfl h1
    | _ => rfl
  adcReadyAt h3 hwire := by
    cases h with
    | u3 => exact absurd rfl h3
    | wire => exact absurd rfl hwire
    | _ => rfl
  sched h4 := by
    cases h with
    | u4 => exact absurd rfl h4
    | _ => rfl
  ctl h5 h7 := by
    cases h with
    | u5 => exact absurd rfl h5
    | u7 => exact absurd rfl h7
    | _ => rfl
  ctl_u7 h7 := by
    subst h7
    cases h
    rfl
  latch h6 := by
    cases h with
    | u6 => exact absurd rfl h6
    | _ => rfl
  fsm h7 := by
    cases h with
    | u7 => exact absurd rfl h7
    | _ => rfl
  ports hu := by
    cases h with
    | u1 | u2 | u5 | u6 => rfl
    | _ => simp at hu

theorem OwnerFrame.finish {u : UnitId} {s t : State} (h : OwnerFrame u s t) (r : Result) :
    OwnerFrame u s (Machine.finish r t) :=
  ⟨h.pec, h.adcReadyAt, h.sched, h.ctl, h.ctl_u7, h.latch, h.fsm, h.ports⟩

theorem OwnerFrame.refuse (u : UnitId) (s : State) (why : RefusalReason) :
    OwnerFrame u s (Machine.refuse why s) :=
  ⟨fun _ => rfl, fun _ _ => rfl, fun _ => rfl, fun _ _ => rfl, fun _ => rfl, fun _ => rfl, fun _ => rfl,
    fun _ => rfl⟩

theorem exec_ownerFrame {i : Instr} {s t : State} (h : exec i s = .next t) :
    OwnerFrame (unitOf i) s t := by
  rcases Leaves.of_exec (exec_leaves_writes i s) h with ⟨r, v, hw, rfl⟩ | ⟨why, rfl⟩
  · exact hw.ownerFrame.finish r
  · exact .refuse _ s why

/-- Settles O7: the frame of the writes of the instruction's unit. -/
theorem onlyOwnerWrites : Obligations.OnlyOwnerWrites := by
  intro i s t h
  obtain ⟨hpec, hadc, hsched, hctl, hctl7, hlatch, hfsm, hports⟩ := exec_ownerFrame h
  exact ⟨hpec, hadc, hsched, hctl, hctl7, hlatch, hfsm, hports⟩

/-! ### Invariants of every step -/

/-- What survives a fetch, a redraw of the undriven port, a refusal and every operation survives a step. -/
theorem step_keeps {P : State → Prop} (hredraw : ∀ s, P s → P (redrawOkOut s))
    (hfetched : ∀ rest s, P s → P (fetched rest s)) (hrefuse : ∀ why s, P s → P (refuse why s))
    (hexec : ∀ i s t, P s → exec i s = .next t → P t) {s t : State} (hs : P s)
    (h : step s = .next t) : P t := by
  rcases step_cases s with ⟨-, hidle⟩ | ⟨_, rest, i, -, -, hrun⟩ | ⟨_, rest, why, -, -, hunknown⟩
  · cases hidle.symm.trans h
    exact hredraw s hs
  · exact hexec i _ t (hfetched rest s hs) (hrun.symm.trans h)
  · cases hunknown.symm.trans h
    exact hrefuse _ _ (hfetched rest s hs)

/-! ### Sound pairs (43_scheduler R205 to R207, R212 (a)) -/

/-- What the scheduler's invariants say of one pair whose slots have the kinds `kinds`. -/
structure PairSound (kinds : Triple Kind) (p : Pair) : Prop where
  counter : p.valid = true → p.invCnt = 0
  slot0 : kinds.s0 = .none → p.sample.s0 = none
  slot1 : kinds.s1 = .none → p.sample.s1 = none
  slot2 : kinds.s2 = .none → p.sample.s2 = none
  skipped : kinds = ⟨.none, .none, .none⟩ → p = Pair.reset

/-- `UpdateValidity` keeps a pair that is not skipped sound. -/
theorem PairSound.updateValidity {kinds : Triple Kind} {p : Pair} (h : PairSound kinds p)
    (hread : kinds ≠ ⟨.none, .none, .none⟩) (ok : Bool) :
    PairSound kinds (Machine.updateValidity ok p) where
  counter hv := if_pos hv
  slot0 := h.slot0
  slot1 := h.slot1
  slot2 := h.slot2
  skipped hk := absurd hk hread

theorem commitSlot_none (old : Option Code) (code : Code) : commitSlot .none old code = old := rfl

/-- `Commit` keeps a pair that is not skipped sound: it leaves every slot of kind `none`. -/
theorem PairSound.commitCodes {kinds : Triple Kind} {p : Pair} (h : PairSound kinds p)
    (hread : kinds ≠ ⟨.none, .none, .none⟩) (codes : Triple Code) :
    PairSound kinds (Machine.commitCodes kinds codes p) where
  counter := h.counter
  slot0 hk := by simp [Machine.commitCodes, hk, commitSlot_none, h.slot0 hk]
  slot1 hk := by simp [Machine.commitCodes, hk, commitSlot_none, h.slot1 hk]
  slot2 hk := by simp [Machine.commitCodes, hk, commitSlot_none, h.slot2 hk]
  skipped hk := absurd hk hread

/-- A packet, whatever its verdict, keeps a pair that is not skipped sound. -/
theorem PairSound.pairAfter {kinds : Triple Kind} {p : Pair} (h : PairSound kinds p)
    (hread : kinds ≠ ⟨.none, .none, .none⟩) (d : Six) (ok : Bool) :
    PairSound kinds (Machine.pairAfter kinds d.toList ok p) := by
  rw [pairAfter_toList]
  split_ifs
  · exact (h.updateValidity hread true).commitCodes hread _
  · exact h.updateValidity hread false

theorem kinds_ne_of_not_skipsGroup {ch : ChipConf} {g : ReadGroup} (h : skipsGroup ch g = false) :
    ch.kind.get g ≠ ⟨.none, .none, .none⟩ := by
  intro hk
  simp [skipsGroup, hk] at h

/-! ### The sound store -/

/-- U4 holds a record for each chip, and each of its pairs is sound. -/
structure StoreSound (k : Config) (u : SchedUnit) : Prop where
  sized : u.chips.length = k.nChips
  pairs : ∀ {c ch}, k.chips[c]? = some ch → ∀ g, PairSound (ch.kind.get g) (u.pair c g)

theorem StoreSound.setCfg {k : Config} {u : SchedUnit} (h : StoreSound k u) (c : Nat) (f : CfgFields) :
    StoreSound k (u.setCfg c f) where
  sized := (setCfg_chips_length u c f).trans h.sized
  pairs hch g := by
    rw [pair_setCfg]
    exact h.pairs hch g

theorem lt_nChips_of_chip {k : Config} {c : Nat} {ch : ChipConf} (h : k.chips[c]? = some ch) :
    c < k.nChips := (List.getElem?_eq_some_iff.mp h).1

theorem StoreSound.setPair {k : Config} {u : SchedUnit} (h : StoreSound k u) {c : Nat} {ch : ChipConf}
    (hch : k.chips[c]? = some ch) {g : ReadGroup} {p : Pair} (hp : PairSound (ch.kind.get g) p) :
    StoreSound k (u.setPair c g p) where
  sized := (setPair_chips_length u c g p).trans h.sized
  pairs {d dh} hdh g' := by
    by_cases hsame : d = c ∧ g' = g
    · obtain ⟨rfl, rfl⟩ := hsame
      obtain rfl : ch = dh := Option.some.inj (hch.symm.trans hdh)
      have hlt : d < u.chips.length := h.sized ▸ lt_nChips_of_chip hch
      rw [pair_setPair_same hlt]
      exact hp
    · rw [pair_setPair_ne (by tauto)]
      exact h.pairs hdh g'

/-- `ReadChip` writes nothing for a skipped group, and else the one pair that takes the packet. -/
theorem StoreSound.readChip {k : Config} {u : SchedUnit} (h : StoreSound k u) {c : Nat} {ch : ChipConf}
    (hch : k.chips[c]? = some ch) (table : Vector Code 256) (g : ReadGroup) (p : Ports) :
    StoreSound k (Machine.readChip k table g ch c u p).2.1 := by
  rcases readChip_cases k table g ch c u p with ⟨-, hskip⟩ | ⟨hread, d, r6, r7, -, hpacket⟩
  · rw [hskip]
    exact h
  · rw [hpacket]
    exact h.setPair hch ((h.pairs hch g).pairAfter (kinds_ne_of_not_skipsGroup hread) d _)

theorem StoreSound.readChips {k : Config} (table : Vector Code 256) (g : ReadGroup)
    {l : List (ChipConf × Nat)} (hl : ∀ x ∈ l, k.chips[x.2]? = some x.1) {u : SchedUnit}
    (h : StoreSound k u) (p : Ports) : StoreSound k (Machine.readChips k table g l u p).2.1 := by
  induction l generalizing u p with
  | nil => exact h
  | cons x rest ih =>
    obtain ⟨hx, hrest⟩ := List.forall_mem_cons.mp hl
    rw [readChips_cons]
    exact ih hrest (h.readChip hx table g p) _

/-- Neither the advance of `GRP` and `CYCLE` nor the restart of `GRP` touches the store. -/
theorem StoreSound.sequencing {k : Config} {u : SchedUnit} (h : StoreSound k u) (grp : BitVec 3)
    (cycle : Nat) : StoreSound k { u with grp := grp, cycle := cycle } where
  sized := h.sized
  pairs := h.pairs

/-! ### Every step -/

/-- The scheduler's invariants and the sizes of the other stores, element by element. -/
structure SchedulerSound (s : State) : Prop where
  legal : groupLegal s
  store : StoreSound s.conf s.sched
  adc : s.adcReadyAt.length = s.conf.nChips
  bal : s.ctl.bal.length = s.conf.nCellsTotal

/-- `SchedulerSound` is the five store invariants together. -/
theorem schedulerSound_iff (s : State) :
    SchedulerSound s ↔
      groupLegal s ∧ storesSized s ∧ countersSound s ∧ slotsSound s ∧ skippedUntouched s := by
  constructor
  · intro h
    refine ⟨h.legal, ⟨h.store.sized, h.adc, h.bal⟩, fun c hc g _ => ?_, fun c ch hch g => ?_,
      fun c ch hch g => (h.store.pairs hch g).skipped⟩
    · exact (h.store.pairs (List.getElem?_eq_getElem hc) g).counter
    · exact ⟨(h.store.pairs hch g).slot0, (h.store.pairs hch g).slot1, (h.store.pairs hch g).slot2⟩
  · rintro ⟨hlegal, ⟨hsized, hadc, hbal⟩, hcounters, hslots, hskipped⟩
    refine ⟨hlegal, ⟨hsized, fun {c ch} hch g => ?_⟩, hadc, hbal⟩
    obtain ⟨h0, h1, h2⟩ := hslots c ch hch g
    exact ⟨hcounters c (lt_nChips_of_chip hch) g (ReadGroup.mem_all g), h0, h1, h2,
      hskipped c ch hch g⟩

/-- The body of `SCHED.NEXT` keeps the store sound and `GRP` legal. -/
theorem SchedulerSound.schedRound {s : State} (h : SchedulerSound s) (g : ReadGroup) :
    SchedulerSound (Machine.schedRound g s).2 where
  legal := groupBits_lt (nextGroup g)
  store := (h.store.readChips s.pec.table g (fun _ => mem_numberedChips) _).sequencing _ _
  adc := h.adc
  bal := h.bal

theorem SchedulerSound.schedRestart {s : State} (h : SchedulerSound s) :
    SchedulerSound (Machine.schedRestart s).2 where
  legal := groupBits_lt .cvA
  store := h.store.sequencing _ _
  adc := h.adc
  bal := h.bal

/-- The three operations of U4 leave the scheduler sound. -/
theorem exec_u4_leaves_schedulerSound {i : Instr} (hu : unitOf i = .u4) {s : State}
    (h : SchedulerSound s) : ∃ a, exec i s = conclude s a ∧ Leaves SchedulerSound a := by
  cases i with
  | schedSetcfg c f =>
    exact ⟨_, rfl, .bind fun _ => .bind fun fields =>
      .done _ ⟨h.legal, h.store.setCfg c fields, h.adc, h.bal⟩⟩
  | schedNext =>
    refine ⟨_, rfl, .bind fun _ => ?_⟩
    split
    · exact .done _ (h.schedRound _)
    · exact .done _ h.schedRestart
  | schedFaultdata => exact ⟨.ok _, rfl, .done _ h⟩
  | _ => cases hu

/-- Outside U4 an operation writes no pair, and keeps the sizes of the stores it writes. -/
theorem Writes.schedulerSound {u : UnitId} (hu : u ≠ .u4) {s t : State} (hw : Writes s u t)
    (h : SchedulerSound s) : SchedulerSound t := by
  cases hw with
  | u1 | u2 | u6 | u7 => exact ⟨h.legal, h.store, h.adc, h.bal⟩
  | u3 _ _ hlen | wire _ _ hlen => exact ⟨h.legal, h.store, hlen.trans h.adc, h.bal⟩
  | u4 => exact absurd rfl hu
  | u5 _ hbal => exact ⟨h.legal, h.store, h.adc, hbal h.bal⟩

theorem SchedulerSound.finish {t : State} (h : SchedulerSound t) (r : Result) :
    SchedulerSound (Machine.finish r t) := ⟨h.legal, h.store, h.adc, h.bal⟩

theorem SchedulerSound.refuse {s : State} (h : SchedulerSound s) (why : RefusalReason) :
    SchedulerSound (Machine.refuse why s) := ⟨h.legal, h.store, h.adc, h.bal⟩

theorem exec_leaves_schedulerSound (i : Instr) {s : State} (h : SchedulerSound s) :
    ∃ a, exec i s = conclude s a ∧ Leaves SchedulerSound a := by
  by_cases hu : unitOf i = .u4
  · exact exec_u4_leaves_schedulerSound hu h
  · obtain ⟨a, hexec, hleaves⟩ := exec_leaves_writes i s
    exact ⟨a, hexec, fun r t ha => (hleaves r t ha).schedulerSound hu h⟩

theorem exec_keeps_schedulerSound (i : Instr) (s t : State) (h : SchedulerSound s)
    (hexec : exec i s = .next t) : SchedulerSound t := by
  rcases Leaves.of_exec (exec_leaves_schedulerSound i h) hexec with ⟨r, v, hv, rfl⟩ | ⟨why, rfl⟩
  · exact hv.finish r
  · exact h.refuse why

/-- Settles O56: the five invariants are inductive together, as `SchedulerSound`. -/
theorem stepKeepsSchedulerSound : Obligations.StepKeepsSchedulerSound := by
  intro s t hlegal hsized hcounters hslots hskipped hstep
  rw [← schedulerSound_iff]
  have hs : SchedulerSound s :=
    (schedulerSound_iff s).mpr ⟨hlegal, hsized, hcounters, hslots, hskipped⟩
  exact step_keeps (P := SchedulerSound) (fun _ h => ⟨h.legal, h.store, h.adc, h.bal⟩)
    (fun _ _ h => ⟨h.legal, h.store, h.adc, h.bal⟩) (fun why _ h => h.refuse why)
    exec_keeps_schedulerSound hs hstep

/-! ### What reset leaves (10_state R46, 70_reset R381, R382) -/

/-- Every chip record of a fresh block has its reset value, also at an id that names no chip. -/
theorem chip_reset (n c : Nat) : (SchedUnit.reset n).chip c = ChipRec.reset := by
  rw [SchedUnit.chip, SchedUnit.reset, List.getD_eq_getElem?_getD, List.getElem?_replicate]
  split_ifs <;> rfl

theorem pair_reset (n c : Nat) (g : ReadGroup) : (SchedUnit.reset n).pair c g = Pair.reset := by
  rw [SchedUnit.pair, chip_reset]
  exact PerGroup.get_const Pair.reset g

theorem pairSound_reset (kinds : Triple Kind) : PairSound kinds Pair.reset where
  counter _ := rfl
  slot0 _ := rfl
  slot1 _ := rfl
  slot2 _ := rfl
  skipped _ := rfl

theorem schedulerSound_resetWith (k : Config) : SchedulerSound (State.resetWith k) where
  legal := groupBits_lt .cvA
  store :=
    { sized := List.length_replicate
      pairs := fun {c ch} _ g => (pair_reset k.nChips c g).symm ▸ pairSound_reset (ch.kind.get g) }
  adc := List.length_replicate
  bal := List.length_replicate

/-- The stored times of a fresh block are all 0, and it has seen no tick. -/
theorem timesSound_resetWith (k : Config) : timesSound (State.resetWith k) :=
  ⟨fun c _ => (PerClass.get_const 0 c).le, nofun⟩

/-- Settles O59: the scheduler's invariants through the reset pair, the others from an empty trace and the
reset values. -/
theorem resetMeetsInvariants : Obligations.ResetMeetsInvariants := by
  refine ⟨?_, fun k hsoc0 hsoc1 => ?_⟩
  · rw [State_reset_conf, defaultConfig_ctl]
    exact fittedCtl_valid Config.openCtl .plus
  · have hframes : framesSound (State.resetWith k) := nofun
    obtain ⟨hlegal, hsized, hcounters, hslots, hskipped⟩ :=
      (schedulerSound_iff _).mp (schedulerSound_resetWith k)
    have hbmsOk : bmsOkSound (State.resetWith k) := ⟨nofun, nofun⟩
    have houtputs : outputsSound (State.resetWith k) := ⟨⟨nofun, nofun⟩, fun _ => rfl⟩
    have hlatches : latchesSound (State.resetWith k) := ⟨nofun, nofun, nofun⟩
    exact ⟨rfl, rfl, nofun, hframes, hlegal, hsized, hcounters, hslots, hskipped, ⟨hsoc0, hsoc1⟩,
      hbmsOk, timesSound_resetWith k, houtputs, hlatches⟩

/-- Settles O60: the store and the fault flags through their records, every other element by the
definition of reset. -/
theorem resetValues : Obligations.ResetValues := by
  intro k s
  have hpair : ∀ c g, s.sched.pair c g = Pair.reset := pair_reset k.nChips
  have hchip : ∀ c, s.sched.chip c = ChipRec.reset := chip_reset k.nChips
  have hcfg : ∀ c, (s.sched.chip c).cfg = zeroFields := fun c => by rw [hchip]; rfl
  have hpairs : ∀ c g, (s.sched.pair c g).valid = false ∧ (s.sched.pair c g).invCnt = 0 ∧
      (s.sched.pair c g).sample = ⟨none, none, none⟩ := fun c g => by
    rw [hpair]
    exact ⟨rfl, rfl, rfl⟩
  have hfault : ∀ f, s.ctl.fault.get f = false := PerClass.get_const false
  exact ⟨rfl, rfl, rfl, hpairs, hcfg, rfl, rfl, hfault, rfl, rfl, rfl, rfl, rfl, rfl, rfl, rfl, rfl,
    rfl, rfl, rfl, fun _ => rfl, rfl⟩

end Sys2Proof.Proofs
end

section
/-! PROOFS. The memory (20_memory): the parameters are constant, and a step uses up one request. -/

namespace Sys2Proof.Proofs

open Sys2Proof Sys2Proof.Machine

/-- Done or refused, an operation leaves the parameters and the pending requests as it finds them. -/
theorem exec_keeps_conf_reqs {i : Instr} {s t : State} (h : exec i s = .next t) :
    t.conf = s.conf ∧ t.reqs = s.reqs := by
  rcases Leaves.of_exec (exec_leaves_sameHostSide i s) h with ⟨r, v, hsame, rfl⟩ | ⟨why, rfl⟩
  · exact ⟨hsame.conf, hsame.reqs⟩
  · exact ⟨rfl, rfl⟩

/-- Settles O6, by what a step can be: the fetch alone takes a request, and neither it nor the operation
writes a parameter. -/
theorem configNeverChanges : Obligations.ConfigNeverChanges := by
  intro s t h
  rcases step_cases s with
    ⟨hreqs, hidle⟩ | ⟨_, rest, i, hreqs, -, hrun⟩ | ⟨_, rest, why, hreqs, -, hunknown⟩
  · cases hidle.symm.trans h
    simp [hreqs]
  · obtain ⟨hconf, hpending⟩ := exec_keeps_conf_reqs (hrun.symm.trans h)
    simp [hconf, hpending, hreqs]
  · cases hunknown.symm.trans h
    simp [hreqs]

end Sys2Proof.Proofs
end

section
/-! PROOFS. The encoding (30_encoding): what a frame carries, the table of the wire commands, the round trip
of every request, and the bytes of a register write and a register read. -/

namespace Sys2Proof.Proofs

open Sys2Proof Sys2Proof.Machine Sys2Proof.Safety

/-! ### The fields of a frame (30_encoding R91) -/

theorem getLsbD_frameBytes_fst (addr : BitVec 4) (cc : BitVec 11) (i : Nat) :
    (frameBytes addr cc).1.getLsbD i =
      if i < 3 then cc.getLsbD (8 + i) else if i < 7 then addr.getLsbD (i - 3) else decide (i = 7) := by
  change ((1#1 ++ addr : BitVec (1 + 4)) ++ cc.extractLsb' 8 3 : BitVec (1 + 4 + 3)).getLsbD i = _
  rw [BitVec.getLsbD_append, BitVec.getLsbD_append, BitVec.getLsbD_extractLsb']
  split_ifs with hcode
  · simp [hcode]
  · rfl
  · omega
  · omega
  · rw [BitVec.getLsbD_one]
    exact decide_eq_decide.mpr (by omega)

theorem frameAddr_frameBytes (addr : BitVec 4) (cc : BitVec 11) :
    frameAddr (frameBytes addr cc).1 = addr := by
  refine BitVec.eq_of_getLsbD_eq fun i hi => ?_
  have hhigh : ¬ 3 + i < 3 := by omega
  have hlow : 3 + i < 7 := by omega
  simp [frameAddr, getLsbD_frameBytes_fst, hi, hhigh, hlow]

theorem frameCode_frameBytes (addr : BitVec 4) (cc : BitVec 11) :
    frameCode (frameBytes addr cc).1 (frameBytes addr cc).2 = cc := by
  refine BitVec.eq_of_getLsbD_eq fun i hi => ?_
  rw [frameCode, BitVec.getLsbD_append]
  split_ifs with hlow
  · simp [frameBytes, hlow]
  · have hbit : i - 8 < 3 := by omega
    have hpos : 8 + (i - 8) = i := by omega
    simp [getLsbD_frameBytes_fst, hbit, hpos]

/-- The command code of two frame bytes as a number (30_encoding R91, "In formulas"). -/
theorem toNat_frameCode (b0 b1 : Byte) : (frameCode b0 b1).toNat = b0.toNat % 8 * 256 + b1.toNat := by
  have hb1 : b1.toNat < 2 ^ 8 := b1.isLt
  rw [frameCode, BitVec.toNat_append, ← Nat.shiftLeft_add_eq_or_of_lt hb1, Nat.shiftLeft_eq]
  simp

/-- Bit 7 of a byte by its value. -/
theorem getLsbD_seven (b : Byte) : b.getLsbD 7 = decide (128 ≤ b.toNat) := by
  rw [← BitVec.msb_eq_decide b, BitVec.msb_eq_getLsbD_last]

/-! ### The table of the wire commands (30_encoding R106) -/

/-- The wire commands with their codes, in the order of the table. -/
def commandTable (k : CmdCodes) (line : Nat) (addr : BitVec 4) : List (BitVec 11 × Instr) :=
  [(k.wrcfg, .wrcfg line addr), (k.rd.cvA, .rdcva line addr), (k.rd.cvB, .rdcvb line addr),
    (k.rd.cvC, .rdcvc line addr), (k.rd.cvD, .rdcvd line addr), (k.rd.auxA, .rdauxa line addr),
    (k.rd.auxB, .rdauxb line addr), (k.adcCell.m0, .adc line addr .cell 0#2),
    (k.adcCell.m1, .adc line addr .cell 1#2), (k.adcCell.m2, .adc line addr .cell 2#2),
    (k.adcCell.m3, .adc line addr .cell 3#2), (k.adcGpio.m0, .adc line addr .gpio 0#2),
    (k.adcGpio.m1, .adc line addr .gpio 1#2), (k.adcGpio.m2, .adc line addr .gpio 2#2),
    (k.adcGpio.m3, .adc line addr .gpio 3#2)]

theorem commandTable_codes (k : CmdCodes) (line : Nat) (addr : BitVec 4) :
    (commandTable k line addr).map Prod.fst = k.list := rfl

theorem elim_lookup_cons {α β γ : Type} [DecidableEq α] (a key : α) (b : β) (l : List (α × β)) (z : γ)
    (f : β → γ) : (((key, b) :: l).lookup a).elim z f = if a = key then f b else (l.lookup a).elim z f := by
  by_cases h : a = key
  · simp [h]
  · rw [List.lookup_cons, beq_eq_false_iff_ne.mpr h, if_neg h]

/-- Decoding a command code is a search in the table. -/
theorem decodeCommand_eq_lookup (k : CmdCodes) (cc : BitVec 11) (line : Nat) (addr : BitVec 4) :
    decodeCommand k cc line addr =
      ((commandTable k line addr).lookup cc).elim (.error (.unknownCommand cc)) .ok := by
  simp only [commandTable, elim_lookup_cons, List.lookup_nil, Option.elim_none, decodeCommand]

/-- With no key twice, a search finds every entry. -/
theorem lookup_of_mem_of_nodup {α β : Type} [DecidableEq α] {a : α} {b : β} {l : List (α × β)}
    (hl : (l.map Prod.fst).Nodup) (h : (a, b) ∈ l) : l.lookup a = some b := by
  induction l with
  | nil => cases h
  | cons x rest ih =>
    obtain ⟨hx, hrest⟩ := List.nodup_cons.mp hl
    rcases List.mem_cons.mp h with rfl | hmem
    · simp
    · have hne : a ≠ x.1 := fun heq => hx (heq ▸ List.mem_map_of_mem (f := Prod.fst) hmem)
      rw [List.lookup_cons, beq_eq_false_iff_ne.mpr hne]
      exact ih hrest hmem

/-- With pairwise different codes, an entry's code decodes to the entry's command. -/
theorem decodeCommand_of_mem {k : CmdCodes} (hk : k.distinct = true) {cc : BitVec 11} {line : Nat}
    {addr : BitVec 4} {i : Instr} (h : (cc, i) ∈ commandTable k line addr) :
    decodeCommand k cc line addr = .ok i := by
  have hcodes : ((commandTable k line addr).map Prod.fst).Nodup := of_decide_eq_true hk
  rw [decodeCommand_eq_lookup, lookup_of_mem_of_nodup hcodes h, Option.elim_some]

/-- A code that no command has is refused by name. -/
theorem decodeCommand_of_notMem {k : CmdCodes} {cc : BitVec 11} (h : cc ∉ k.list) (line : Nat)
    (addr : BitVec 4) : decodeCommand k cc line addr = .error (.unknownCommand cc) := by
  have hnone : (commandTable k line addr).lookup cc = none := by
    refine List.lookup_eq_none_iff.mpr fun x hx => bne_iff_ne.mpr ?_
    rintro rfl
    exact h (commandTable_codes k line addr ▸ List.mem_map_of_mem (f := Prod.fst) hx)
  rw [decodeCommand_eq_lookup, hnone, Option.elim_none]

/-- The fifteen codes are those of `WRCFG`, of the six reads and of the conversions. -/
theorem notMem_codes {k : CmdCodes} {cc : BitVec 11} (hwrcfg : cc ≠ k.wrcfg)
    (hrd : ∀ g, cc ≠ k.rd.get g) (hadc : ∀ kind mode, cc ≠ k.adc kind mode) : cc ∉ k.list := by
  simp only [CmdCodes.list, List.mem_cons, List.not_mem_nil, or_false, not_or]
  exact ⟨hwrcfg, hrd .cvA, hrd .cvB, hrd .cvC, hrd .cvD, hrd .auxA, hrd .auxB,
    hadc .cell 0#2, hadc .cell 1#2, hadc .cell 2#2, hadc .cell 3#2,
    hadc .gpio 0#2, hadc .gpio 1#2, hadc .gpio 2#2, hadc .gpio 3#2⟩

theorem adc_mem_commandTable (k : CmdCodes) (line : Nat) (addr : BitVec 4) (kind : AdcKind)
    (mode : BitVec 2) : (k.adc kind mode, .adc line addr kind mode) ∈ commandTable k line addr := by
  have hmode : mode = 0#2 ∨ mode = 1#2 ∨ mode = 2#2 ∨ mode = 3#2 := by revert mode; decide
  cases kind <;> rcases hmode with rfl | rfl | rfl | rfl <;>
    simp [commandTable, CmdCodes.adc, PerMode.get]

/-! ### The round trip -/

/-- A frame the encoder writes decodes as its command code does. -/
theorem decode_encodeFrame (k : CmdCodes) (line : Nat) (addr : BitVec 4) (cc : BitVec 11) :
    decode k (encodeFrame line addr cc) = decodeCommand k cc line addr := by
  rw [encodeFrame, decode, Laws.frameBytes_addressed, if_pos rfl, frameAddr_frameBytes,
    frameCode_frameBytes]

/-- A frame with the code of a table entry decodes to the entry's command. -/
theorem decode_encodeFrame_of_mem {k : CmdCodes} (hk : k.distinct = true) {cc : BitVec 11} {line : Nat}
    {addr : BitVec 4} {i : Instr} (h : (cc, i) ∈ commandTable k line addr) :
    decode k (encodeFrame line addr cc) = .ok i := by
  rw [decode_encodeFrame, decodeCommand_of_mem hk h]

theorem decode_encode {k : CmdCodes} (hk : k.distinct = true) (i : Instr) :
    decode k (encode k i) = .ok i := by
  cases i with
  | wrcfg line addr | rdcva line addr | rdcvb line addr | rdcvc line addr | rdcvd line addr
  | rdauxa line addr | rdauxb line addr =>
    exact decode_encodeFrame_of_mem hk (by simp [commandTable])
  | adc line addr kind mode => exact decode_encodeFrame_of_mem hk (adc_mem_commandTable ..)
  | _ => rfl

/-- Settles O1. -/
theorem decodeInvertsEncode : Obligations.DecodeInvertsEncode :=
  fun _ i hcodes _ => decode_encode hcodes i

/-! ### Opcode-table words (30_encoding R91, R108) -/

/-- Settles O2, by evaluating the decoder on each word. -/
theorem tableWordsDecode : Obligations.TableWordsDecode := by
  refine ⟨?_, ?_, ?_, ?_, ?_, ?_, ?_, ?_, ?_, ?_, ?_, ?_, ?_, ?_⟩ <;> rfl

/-! ### Requests that name no operation (30_encoding R119) -/

/-- An `OPSEL` without a row is rejected by name: the decoder's other arms are the rows. -/
theorem decodeOp_unknown {opsel : Byte} (h : opsel.toNat ∉
      [0x01, 0x02, 0x03, 0x10, 0x11, 0x12, 0x13, 0x14, 0x15, 0x16, 0x17, 0x20, 0x21, 0x22, 0x23, 0x30, 0x31,
        0x32, 0x40, 0x41, 0x42, 0x50, 0x51, 0x52, 0x60, 0x61]) (o : Operands) :
    decodeOp opsel o = .error (.unknownOpsel opsel) := by
  unfold decodeOp
  split
  all_goals simp_all

/-- A frame with bit 7 of byte 0 clear is rejected by name. -/
theorem decode_wire_unaddressed (k : CmdCodes) {b0 : Byte} (h : b0.toNat < 128) (b1 : Byte) (line : Nat) :
    decode k (.wire b0 b1 line) = .error (.notAddressed b0) := by
  have hbit : b0.getLsbD 7 = false := by
    rw [getLsbD_seven]
    exact decide_eq_false (Nat.not_le.mpr h)
  rw [decode, hbit, if_neg Bool.false_ne_true]

/-- A frame with bit 7 of byte 0 set decodes as its command code does. -/
theorem decode_wire_addressed (k : CmdCodes) {b0 : Byte} (h : 128 ≤ b0.toNat) (b1 : Byte) (line : Nat) :
    decode k (.wire b0 b1 line) = decodeCommand k (frameCode b0 b1) line (frameAddr b0) := by
  have hbit : b0.getLsbD 7 = true := by
    rw [getLsbD_seven]
    exact decide_eq_true h
  rw [decode, hbit, if_pos rfl]

/-- A request that does not decode is used up and refused. -/
theorem step_of_decode_error {s : State} {r : Request} {rest : List Request} {why : DecodeReject}
    (hreqs : s.reqs = r :: rest) (hdecode : decode s.conf.codes r = .error why) :
    step s = .next (refuse (.unknownRequest why) (fetched rest s)) := by
  rw [step, hreqs]
  simp only [hdecode]
  rfl

/-- Settles O4: each of the three requests is rejected by the decoder, and so refused by the step. -/
theorem unknownRequestRefused : Obligations.UnknownRequestRefused := by
  intro s rest refusedFor
  refine ⟨fun opsel o hreqs hopsel => ?_, fun b0 b1 line hreqs hb0 => ?_,
    fun b0 b1 line cc hreqs hb0 hcc hwrcfg hrd hadc => ?_⟩
  · exact step_of_decode_error hreqs (decodeOp_unknown hopsel o)
  · exact step_of_decode_error hreqs (decode_wire_unaddressed _ hb0 b1 line)
  · have hcode : frameCode b0 b1 = cc := BitVec.eq_of_toNat_eq ((toNat_frameCode b0 b1).trans hcc.symm)
    have hdecode : decode s.conf.codes (.wire b0 b1 line) = .error (.unknownCommand cc) := by
      rw [decode_wire_addressed _ hb0, hcode, decodeCommand_of_notMem (notMem_codes hwrcfg hrd hadc)]
    exact step_of_decode_error hreqs hdecode

/-! ### Register writes and reads (30_encoding R94 to R96) -/

/-- Byte 0 of a command frame in numbers: the three fields do not overlap. -/
theorem or_fields_eq_add {a h : Nat} (ha : a < 16) (hh : h < 8) :
    128 ||| a * 8 ||| h = 128 + a * 8 + h := by
  have hlow : a * 8 ||| h = a * 8 + h := by
    rw [Nat.mul_comm]
    exact (Nat.two_pow_add_eq_or_of_lt (i := 3) hh a).symm
  have hrest : a * 8 + h < 2 ^ 7 := by omega
  calc 128 ||| a * 8 ||| h = 2 ^ 7 * 1 ||| (a * 8 + h) := by rw [Nat.or_assoc, hlow]
    _ = 2 ^ 7 * 1 + (a * 8 + h) := (Nat.two_pow_add_eq_or_of_lt hrest 1).symm
    _ = 128 + a * 8 + h := (Nat.add_assoc ..).symm

/-- The command frame in the formulas of 30_encoding R91. -/
theorem cmdFrame_eq_commandBytes (addr : BitVec 4) (cc : BitVec 11) :
    cmdFrame addr cc = commandBytes addr.toNat cc.toNat := by
  have haddr : addr.toNat < 16 := addr.isLt
  have hcode : cc.toNat / 256 < 8 := by omega
  have hbyte0 : (0x80#8 ||| (addr.setWidth 8 <<< 3)) ||| (cc >>> 8).setWidth 8 =
      BitVec.ofNat 8 (0x80 + addr.toNat * 8 + cc.toNat / 256) := by
    have haddr8 : addr.toNat * 8 % 256 = addr.toNat * 8 := by omega
    have hcode8 : cc.toNat / 256 % 256 = cc.toNat / 256 := by omega
    refine BitVec.eq_of_toNat_eq ?_
    simp only [BitVec.toNat_or, BitVec.toNat_ofNat, BitVec.toNat_shiftLeft, BitVec.toNat_setWidth,
      BitVec.toNat_ushiftRight, Nat.shiftLeft_eq, Nat.shiftRight_eq_div_pow, Nat.reducePow, Nat.reduceMod,
      Nat.mod_mul_mod, haddr8, hcode8, or_fields_eq_add haddr hcode]
    omega
  have hbyte1 : cc.setWidth 8 = BitVec.ofNat 8 (cc.toNat % 256) := BitVec.eq_of_toNat_eq (by simp)
  rw [cmdFrame, commandBytes, hbyte0, hbyte1]

/-- `F-CMD4` of a command code given as a number: the frame and the PEC of the frame. -/
theorem cmd4_ofNat (table : Vector Code 256) (addr : BitVec 4) {cc : Nat} (h : cc < 2048) :
    cmd4 table addr (BitVec.ofNat 11 cc) =
      commandBytes addr.toNat cc ++ pecBytes table (commandBytes addr.toNat cc) := by
  rw [cmd4, pecAppend, cmdFrame_eq_commandBytes, BitVec.toNat_ofNat, Nat.mod_eq_of_lt h]

/-- `SPI.WRREG` with its operands in range writes the group in one window. -/
theorem exec_spiWrreg {s : State} {c cc : Nat} {ch : ChipConf} (hbuilt : s.pec.tableValid = true)
    (hchip : s.conf.chips[c]? = some ch) (hcc : cc < 2 ^ 11) (d : Six) :
    exec (.spiWrreg c cc d.toList) s = .next (finish .none
      { s with ports := writeGroup s.pec.table ch (BitVec.ofNat 11 cc) d s.ports }) := by
  simp [exec, execSpiWrreg, requireTable_built hbuilt, chipConf, hchip, field_of_lt hcc,
    sixBytes_eq_some.mpr rfl]

theorem pecMatches_eq_decide (table : Vector Code 256) (data : List Byte) (rx0 rx1 : Byte) :
    pecMatches table data rx0 rx1 = decide (pecBytes table data = [rx0, rx1]) := by
  rw [pecMatches, Bool.eq_iff_iff, beq_iff_eq, decide_eq_true_iff]

/-- A register read from all lines high, by the bytes that the bus answers after the command's four. -/
theorem readGroup_high {p : Ports} (hhigh : p.csLow = []) (table : Vector Code 256) (txFill : Byte)
    (ch : ChipConf) (cc : BitVec 11) {d : Six} {r6 r7 : Byte}
    (hanswer : (busAnswer p 12).drop 4 = d.toList ++ [r6, r7]) :
    readGroup table txFill ch cc p =
      ((d.toList, decide (pecBytes table d.toList = [r6, r7])),
        afterWindow ch.csLine (readFrame table txFill ch cc) p) := by
  simp only [readGroup, busWindow_high hhigh, readFrame_length, hanswer, checkGroup_eq,
    pecMatches_eq_decide]

/-- `SPI.RDREG` with its operands in range answers what the read of the group gives. -/
theorem exec_spiRdreg {s : State} {c cc : Nat} {ch : ChipConf} (hbuilt : s.pec.tableValid = true)
    (hchip : s.conf.chips[c]? = some ch) (hcc : cc < 2 ^ 11) {data : List Byte} {pecOk : Bool} {p : Ports}
    (hread : readGroup s.pec.table s.conf.txFill ch (BitVec.ofNat 11 cc) s.ports = ((data, pecOk), p)) :
    exec (.spiRdreg c cc) s = .next (finish (.group data pecOk) { s with ports := p }) := by
  simp [exec, execSpiRdreg, requireTable_built hbuilt, chipConf, hchip, field_of_lt hcc, hread]

/-- Settles O26: the write is one window from all lines high, over `F-CMD4` and the data with its PEC. -/
theorem wrregFrame : Obligations.WrregFrame := by
  intro s c cc ch d hbuilt hhigh hchip hcc cmd sent
  have hsent : cmd4 s.pec.table ch.addr (BitVec.ofNat 11 cc) ++ pecAppend s.pec.table d.toList = sent := by
    rw [cmd4_ofNat _ _ hcc, pecAppend, ← List.append_assoc]
  rw [exec_spiWrreg hbuilt hchip hcc, writeGroup, busWindow_high hhigh, hsent]

/-- Settles O27: the read is one window from all lines high, over `F-CMD4` and eight fill bytes, and its
answer is checked from the fifth byte on. -/
theorem rdregGroup : Obligations.RdregGroup := by
  intro s c cc ch d r6 r7 hbuilt hhigh hchip hcc hanswer cmd sent
  have hsent : readFrame s.pec.table s.conf.txFill ch (BitVec.ofNat 11 cc) = sent := by
    rw [readFrame, cmd4_ofNat _ _ hcc]
  rw [exec_spiRdreg hbuilt hchip hcc (readGroup_high hhigh _ _ _ _ hanswer), hsent]

end Sys2Proof.Proofs
end

section
/-! PROOFS. The PEC engine (40_pec): the serial register and its algebra, the table against it, and what the
three operations answer. -/

namespace Sys2Proof.Proofs

open Sys2Proof Sys2Proof.Machine Sys2Proof.Safety

/-! ### One bit into the serial register (40_pec R137) -/

/-- Every bit is shifted up, and the generator comes in when the feedback bit is set. -/
theorem serialBit_eq (reg : BitVec 15) (bit : Bool) :
    serialBit reg bit = (reg <<< 1) ^^^ (if (reg.getLsbD 14 ^^ bit) then 0x4599#15 else 0#15) := by
  unfold serialBit
  cases reg.getLsbD 14 <;> cases bit <;> simp

/-- The register is linear in its content and its input together. -/
theorem serialBit_xor (x y : BitVec 15) (b c : Bool) :
    serialBit (x ^^^ y) (b ^^ c) = serialBit x b ^^^ serialBit y c := by
  have hfeedback : ((x ^^^ y).getLsbD 14 ^^ (b ^^ c)) =
      ((x.getLsbD 14 ^^ b) ^^ (y.getLsbD 14 ^^ c)) := by
    simp only [BitVec.getLsbD_xor, Bool.xor_assoc, Bool.xor_left_comm]
  have hgenerator : ∀ p q : Bool, (if (p ^^ q) then 0x4599#15 else 0#15) =
      (if p then 0x4599#15 else 0#15) ^^^ (if q then 0x4599#15 else 0#15) := by decide
  rw [serialBit_eq, serialBit_eq, serialBit_eq, hfeedback, hgenerator, BitVec.shiftLeft_xor_distrib]
  ac_rfl

/-- An input equal to the top bit only shifts. -/
theorem serialBit_shiftLeft_top (reg : BitVec 15) {k : Nat} (hk : k ≤ 14) :
    serialBit (reg <<< k) (reg.getLsbD (14 - k)) = reg <<< (k + 1) := by
  have htop : (reg <<< k).getLsbD 14 = reg.getLsbD (14 - k) := by
    rw [BitVec.getLsbD_shiftLeft]
    simp [Nat.not_lt.mpr hk]
  rw [serialBit_eq, htop, Bool.xor_self, BitVec.shiftLeft_add]
  simp

/-- Bit 0 of the generator is set, so the register after shows the feedback bit and with it the register
before. -/
theorem serialBit_injective (bit : Bool) : Function.Injective (serialBit · bit) := by
  intro x y (h : serialBit x bit = serialBit y bit)
  have hlow : ∀ z : BitVec 15, (serialBit z bit).getLsbD 0 = (z.getLsbD 14 ^^ bit) := fun z => by
    rw [serialBit_eq]
    cases z.getLsbD 14 ^^ bit <;> simp
  have hfeedback : (x.getLsbD 14 ^^ bit) = (y.getLsbD 14 ^^ bit) := by rw [← hlow x, ← hlow y, h]
  have hshift : x <<< 1 = y <<< 1 := by
    rw [serialBit_eq, serialBit_eq, hfeedback] at h
    exact (BitVec.xor_left_inj _).mp h
  refine BitVec.eq_of_getLsbD_eq fun i hi => ?_
  by_cases htop : i = 14
  · exact htop ▸ Bool.xor_left_inj.mp hfeedback
  · have hsucc : i + 1 < 15 := by omega
    have hbit := congrArg (·.getLsbD (i + 1)) hshift
    simpa [BitVec.getLsbD_shiftLeft, hsucc, hi] using hbit

/-! ### One byte into the serial register -/

theorem serialByte_xor (x y : BitVec 15) (d e : Byte) :
    serialByte (x ^^^ y) (d ^^^ e) = serialByte x d ^^^ serialByte y e := by
  simp only [serialByte, List.foldl_cons, List.foldl_nil, BitVec.getLsbD_xor, serialBit_xor]

/-- A byte equal to the top eight bits only shifts. -/
theorem serialByte_top (reg : BitVec 15) : serialByte reg (reg.extractLsb' 7 8) = reg <<< 8 := by
  have hstep : ∀ k < 8, serialBit (reg <<< k) ((reg.extractLsb' 7 8).getLsbD (7 - k)) = reg <<< (k + 1) := by
    intro k hk
    have hbit : (reg.extractLsb' 7 8).getLsbD (7 - k) = reg.getLsbD (14 - k) := by
      rw [BitVec.getLsbD_extractLsb', decide_eq_true (by omega), Bool.true_and]
      congr 1
      omega
    rw [hbit, serialBit_shiftLeft_top reg (by omega)]
  have hfirst := hstep 0 (by decide)
  rw [BitVec.shiftLeft_zero] at hfirst
  simp only [serialByte, List.foldl_cons, List.foldl_nil]
  rw [hfirst, hstep 1, hstep 2, hstep 3, hstep 4, hstep 5, hstep 6, hstep 7] <;> decide

theorem foldl_injective {α β : Type} {f : β → α → β} (hf : ∀ a, Function.Injective (f · a)) (l : List α) :
    Function.Injective (l.foldl f) := by
  induction l with
  | nil => exact Function.injective_id
  | cons a rest ih => exact ih.comp (hf a)

theorem serialByte_injective (d : Byte) : Function.Injective (serialByte · d) :=
  foldl_injective (f := fun r i => serialBit r (d.getLsbD i))
    (fun i => serialBit_injective (d.getLsbD i)) [7, 6, 5, 4, 3, 2, 1, 0]

/-- A byte as it meets the top eight bits of the register. -/
def aligned (d : Byte) : BitVec 15 := d.setWidth 15 <<< 7

theorem extractLsb'_aligned (d : Byte) : (aligned d).extractLsb' 7 8 = d := by
  refine BitVec.eq_of_getLsbD_eq fun i hi => ?_
  have hi15 : 7 + i < 15 := by omega
  simp [aligned, hi, hi15]

theorem shiftLeft_aligned (d : Byte) : aligned d <<< 8 = 0#15 := by
  rw [aligned, ← BitVec.shiftLeft_add, BitVec.shiftLeft_eq_zero (by decide)]

/-- A byte may enter all at once, before eight zero bits. -/
theorem serialByte_eq_aligned (reg : BitVec 15) (d : Byte) :
    serialByte reg d = serialByte (reg ^^^ aligned d) 0#8 := by
  have htop : serialByte (aligned d) d = 0#15 := by
    rw [← shiftLeft_aligned d, ← serialByte_top, extractLsb'_aligned]
  have hxor := serialByte_xor reg (aligned d) d d
  rw [BitVec.xor_self, htop, BitVec.xor_zero] at hxor
  exact hxor.symm

/-- Different bytes leave different registers. -/
theorem serialByte_byte_injective (reg : BitVec 15) : Function.Injective (serialByte reg) := by
  intro d e h
  rw [serialByte_eq_aligned reg d, serialByte_eq_aligned reg e] at h
  have haligned : aligned d = aligned e := (BitVec.xor_right_inj _).mp (serialByte_injective 0#8 h)
  rw [← extractLsb'_aligned d, haligned, extractLsb'_aligned]

/-! ### Byte sequences into the serial register -/

/-- Equal-length sequences go in together as they do one by one. -/
theorem foldl_serialByte_xor {a b : List Byte} (h : a.length = b.length) (x y : BitVec 15) :
    (List.zipWith (· ^^^ ·) a b).foldl serialByte (x ^^^ y) =
      a.foldl serialByte x ^^^ b.foldl serialByte y := by
  induction a generalizing b x y with
  | nil =>
    obtain rfl := List.length_eq_zero_iff.mp h.symm
    rfl
  | cons d rest ih =>
    obtain ⟨e, rest', rfl⟩ := List.exists_cons_of_length_eq_add_one h.symm
    rw [List.zipWith_cons_cons, List.foldl_cons, List.foldl_cons, List.foldl_cons, serialByte_xor]
    exact ih (Nat.succ.inj h) _ _

/-- Replacing one byte by a different one changes the remainder. -/
theorem foldl_serialByte_set_ne {l : List Byte} {j : Nat} (hj : j < l.length) {c : Byte} (hc : c ≠ l[j])
    (reg : BitVec 15) : (l.set j c).foldl serialByte reg ≠ l.foldl serialByte reg := by
  induction l generalizing j reg with
  | nil => cases hj
  | cons d rest ih =>
    cases j with
    | zero => exact fun h => hc (serialByte_byte_injective reg (foldl_injective serialByte_injective rest h))
    | succ j => exact ih (Nat.lt_of_succ_lt_succ hj) hc _

/-! ### The two bytes of a serial PEC (40_pec R134) -/

theorem getLsbD_padded (reg : BitVec 15) (i : Nat) :
    (reg ++ 0#1 : Code).getLsbD i = (!decide (i = 0) && reg.getLsbD (i - 1)) := by
  refine (BitVec.getLsbD_append (x := reg) (y := 0#1)).trans ?_
  cases i <;> simp

/-- The PEC bytes are the register's top eight bits, and the next seven with the padded zero. -/
theorem serialPec_eq (data : List Byte) :
    serialPec data = [(serialRemainder data).extractLsb' 7 8,
      (serialRemainder data <<< 8).extractLsb' 7 8] := by
  have hhigh : ∀ reg : BitVec 15, (reg ++ 0#1 : Code).extractLsb' 8 8 = reg.extractLsb' 7 8 := by
    intro reg
    refine BitVec.eq_of_getLsbD_eq fun i hi => ?_
    simp only [BitVec.getLsbD_extractLsb', getLsbD_padded]
    have hpred : 8 + i - 1 = 7 + i := by omega
    simp [hpred]
  have hlow : ∀ reg : BitVec 15, (reg ++ 0#1 : Code).extractLsb' 0 8 = (reg <<< 8).extractLsb' 7 8 := by
    intro reg
    refine BitVec.eq_of_getLsbD_eq fun i hi => ?_
    simp only [BitVec.getLsbD_extractLsb', getLsbD_padded, BitVec.getLsbD_shiftLeft]
    have hpred : 7 + i - 8 = i - 1 := by omega
    have hwidth : 7 + i < 15 := by omega
    have hfirst : 7 + i < 8 ↔ i = 0 := by omega
    simp [hpred, hwidth, hfirst]
  rw [serialPec, hhigh, hlow]

theorem serialPec_of_remainder_zero {data : List Byte} (h : serialRemainder data = 0#15) :
    serialPec data = [0x00#8, 0x00#8] := by
  rw [serialPec_eq, h]
  rfl

/-- Data with its own PEC leaves the register empty: each PEC byte equals the top of the register it
meets. -/
theorem serialRemainder_append_serialPec (data : List Byte) :
    serialRemainder (data ++ serialPec data) = 0#15 := by
  rw [serialRemainder, List.foldl_append, ← serialRemainder, serialPec_eq, List.foldl_cons, serialByte_top,
    List.foldl_cons, serialByte_top, List.foldl_nil, ← BitVec.shiftLeft_add,
    BitVec.shiftLeft_eq_zero (by decide)]

/-! ### The table (40_pec R131) -/

/-- The test of bit 14 without the mask. -/
theorem pecShift_eq (r : Code) :
    pecShift r = if r.getLsbD 14 then (r <<< 1) ^^^ poly else r <<< 1 := by
  have hbit : r &&& 0x4000#16 = if r.getLsbD 14 then 0x4000#16 else 0#16 := BitVec.and_twoPow r 14
  rw [pecShift, hbit]
  cases r.getLsbD 14 <;> simp

theorem pecShifts_eq_foldl (n : Nat) (r : Code) :
    pecShifts n r = (List.range n).foldl (fun q _ => pecShift q) r := by
  induction n generalizing r with
  | zero => rfl
  | succ n ih => rw [pecShifts, ih, List.range_succ_eq_map, List.foldl_cons, List.foldl_map]

@[simp] theorem getElem_pecTable {b : Nat} (h : b < 256) : pecTable[b] = tableEntry b :=
  Vector.getElem_ofFn h

/-- In its low 15 bits a step is the serial register's on a zero bit (40_pec R136). -/
theorem setWidth_pecShift (r : Code) : (pecShift r).setWidth 15 = serialBit (r.setWidth 15) false := by
  have hbit : (r.setWidth 15).getLsbD 14 = r.getLsbD 14 := by simp
  rw [pecShift_eq, serialBit_eq, hbit, ← BitVec.setWidth_shiftLeft_of_le (by decide)]
  cases r.getLsbD 14 <;> simp [poly]

theorem setWidth_pecShifts (n : Nat) (r : Code) :
    (pecShifts n r).setWidth 15 = (List.replicate n false).foldl serialBit (r.setWidth 15) := by
  induction n generalizing r with
  | zero => rfl
  | succ n ih => rw [pecShifts, ih, setWidth_pecShift, List.replicate_succ, List.foldl_cons]

/-- In its low 15 bits the entry of a byte is the remainder of that byte from an empty register. -/
theorem setWidth_tableEntry (b : Byte) : (tableEntry b.toNat).setWidth 15 = serialByte 0#15 b := by
  have hseed : (BitVec.ofNat 16 b.toNat <<< 7).setWidth 15 = aligned b := by
    rw [BitVec.ofNat_toNat, BitVec.setWidth_shiftLeft_of_le (by decide),
      BitVec.setWidth_setWidth_of_le _ (by decide), aligned]
  rw [tableEntry, setWidth_pecShifts, hseed, serialByte_eq_aligned, BitVec.zero_xor]
  rfl

/-! ### The table-driven remainder is the serial one (40_pec R137) -/

theorem setWidth_pecStep (rem : Code) (d : Byte) :
    (pecStep pecTable rem d).setWidth 15 = serialByte (rem.setWidth 15) d := by
  have hindex : pecIndex rem d = (rem.setWidth 15).extractLsb' 7 8 ^^^ d := by
    rw [pecIndex, BitVec.extractLsb'_setWidth_of_le (by decide)]
  calc (pecStep pecTable rem d).setWidth 15
      = rem.setWidth 15 <<< 8 ^^^ serialByte 0#15 (pecIndex rem d) := by
        rw [pecStep, getElem_pecTable, BitVec.setWidth_xor, BitVec.setWidth_shiftLeft_of_le (by decide),
          setWidth_tableEntry]
    _ = serialByte (rem.setWidth 15) ((rem.setWidth 15).extractLsb' 7 8 ^^^ pecIndex rem d) := by
        rw [← serialByte_top, ← serialByte_xor, BitVec.xor_zero]
    _ = serialByte (rem.setWidth 15) d := by
        rw [hindex, ← BitVec.xor_assoc, BitVec.xor_self, BitVec.zero_xor]

theorem setWidth_foldl_pecStep (data : List Byte) (rem : Code) :
    (data.foldl (pecStep pecTable) rem).setWidth 15 = data.foldl serialByte (rem.setWidth 15) := by
  induction data generalizing rem with
  | nil => rfl
  | cons d rest ih => rw [List.foldl_cons, ih, setWidth_pecStep, List.foldl_cons]

/-- The doubling puts the low 15 bits above the padded zero. -/
theorem shiftLeft_one_eq_padded (r : Code) : r <<< 1 = r.setWidth 15 ++ 0#1 := by
  refine BitVec.eq_of_getLsbD_eq fun i hi => ?_
  have hwidth : i - 1 < 15 := by omega
  have hfirst : i < 1 ↔ i = 0 := by omega
  rw [getLsbD_padded, BitVec.getLsbD_shiftLeft, BitVec.getLsbD_setWidth]
  simp only [hi, hwidth, hfirst, decide_true, Bool.true_and]

theorem pecBytes_pecTable (data : List Byte) : pecBytes pecTable data = serialPec data := by
  have hvalue : pecValue pecTable data = serialRemainder data ++ 0#1 := by
    rw [pecValue, shiftLeft_one_eq_padded, setWidth_foldl_pecStep]
    rfl
  rw [pecBytes, hvalue, serialPec]

/-! ### What the three operations answer -/

/-- Settles O12: the table is that of the model, whose entries fold the eight steps. -/
theorem pecBuildWritesTable : Obligations.PecBuildWritesTable := by
  intro s
  refine ⟨pecTable, fun b hb => ?_, rfl⟩
  rw [getElem_pecTable, tableEntry, pecShifts_eq_foldl]
  simp only [pecShift_eq]
  rfl

theorem exec_pecCompute (data : List Byte) (s : State) :
    exec (.pecCompute data) s = .next
      (if s.pec.tableValid then finish (.bytes (pecBytes s.pec.table data)) s
       else refuse .tableNotBuilt s) := by
  cases h : s.pec.tableValid with
  | true => simp [exec, execPecCompute, requireTable_built h]
  | false => simp [exec, execPecCompute, requireTable_unbuilt h]

theorem exec_pecCheck (data : List Byte) (rx0 rx1 : Byte) (s : State) :
    exec (.pecCheck data rx0 rx1) s = .next
      (if s.pec.tableValid then finish (.verdict (pecMatches s.pec.table data rx0 rx1)) s
       else refuse .tableNotBuilt s) := by
  cases h : s.pec.tableValid with
  | true => simp [exec, execPecCheck, requireTable_built h]
  | false => simp [exec, execPecCheck, requireTable_unbuilt h]

/-- The table index in the spec's word arithmetic. -/
theorem toNat_pecIndex (rem : Code) (d : Byte) :
    (((rem >>> 7) ^^^ d.setWidth 16) &&& 0xFF#16).toNat = (pecIndex rem d).toNat := by
  have hd : d.toNat < 2 ^ 8 := d.isLt
  have hd16 : d.toNat < 2 ^ 16 := by omega
  have hmask : ∀ v : Nat, v &&& (0xFF#16).toNat = v % 2 ^ 8 := (Nat.and_two_pow_sub_one_eq_mod · 8)
  rw [pecIndex, BitVec.toNat_and, hmask, BitVec.toNat_xor, BitVec.toNat_xor, BitVec.extractLsb'_toNat,
    BitVec.toNat_ushiftRight, BitVec.toNat_setWidth, Nat.xor_mod_two_pow, Nat.mod_eq_of_lt hd16,
    Nat.mod_eq_of_lt hd]

/-- One byte into the remainder, in the spec's word arithmetic. -/
theorem pecStep_eq (table : Vector Code 256) (rem : Code) (d : Byte) :
    pecStep table rem d =
      (rem <<< 8) ^^^ table.toList.getD (((rem >>> 7) ^^^ d.setWidth 16) &&& 0xFF#16).toNat 0 := by
  have hindex : (pecIndex rem d).toNat < table.toList.length := by
    rw [Vector.length_toList]
    exact (pecIndex rem d).isLt
  rw [toNat_pecIndex, List.getD_eq_getElem _ _ hindex, Vector.getElem_toList, pecStep]

/-- The two bytes of a 16-bit value, high byte first, as quotient and remainder. -/
theorem extractLsb'_bytes_eq_ofNat (v : Code) :
    [v.extractLsb' 8 8, v.extractLsb' 0 8] =
      [BitVec.ofNat 8 (v.toNat / 256), BitVec.ofNat 8 (v.toNat % 256)] := by
  have hlow : BitVec.ofNat 8 v.toNat = BitVec.ofNat 8 (v.toNat % 256) :=
    BitVec.eq_of_toNat_eq (by simp)
  rw [BitVec.extractLsb', BitVec.extractLsb', Nat.shiftRight_eq_div_pow, Nat.shiftRight_zero, hlow]

/-- Settles O13: the model's step and its two bytes are the spec's arithmetic. -/
theorem pecComputeFollowsTable : Obligations.PecComputeFollowsTable := by
  intro s data rem p
  have hrem : data.foldl (pecStep s.pec.table) pecSeed = rem :=
    congrArg (fun f => data.foldl f pecSeed) (funext fun r => funext fun d => pecStep_eq s.pec.table r d)
  have hvalue : (pecValue s.pec.table data).toNat = p := by
    rw [pecValue, hrem, BitVec.toNat_shiftLeft, Nat.shiftLeft_eq, Nat.mul_comm]
  rw [exec_pecCompute, pecBytes, extractLsb'_bytes_eq_ofNat, hvalue]

/-- Settles O14: on the built table the model's remainder is the serial register. -/
theorem pecComputeIsBitSerial : Obligations.PecComputeIsBitSerial := by
  intro s data htable hbuilt
  rw [exec_pecCompute, if_pos hbuilt, htable hbuilt, pecBytes_pecTable]

/-- Settles O15: the check compares the two bytes of the computation with the two received. -/
theorem pecCheckNeedsBothBytes : Obligations.PecCheckNeedsBothBytes := by
  intro s data rx0 rx1
  refine ⟨fun hbuilt => ?_, fun hunbuilt => ?_⟩
  · refine ⟨(pecValue s.pec.table data).extractLsb' 8 8, (pecValue s.pec.table data).extractLsb' 0 8,
      pecMatches s.pec.table data rx0 rx1, ?_, ?_, ?_⟩
    · rw [exec_pecCompute, if_pos hbuilt, pecBytes]
    · rw [exec_pecCheck, if_pos hbuilt]
    · simp [pecMatches, pecBytes]
  · rw [exec_pecCheck, hunbuilt]
    rfl

/-! ### The algebra of the PEC (40_pec R138) -/

/-- The PEC of an exclusive-or carries the seed three times over, so the zero sequence's PEC comes in. -/
theorem serialRemainder_zipWith_xor {a b : List Byte} (h : a.length = b.length) :
    serialRemainder (List.zipWith (· ^^^ ·) a b) =
      (serialRemainder a ^^^ serialRemainder b) ^^^ serialRemainder (List.replicate a.length 0x00#8) := by
  have hsum : (List.zipWith (· ^^^ ·) a b).length = a.length := by simp [h]
  have hzero : List.zipWith (· ^^^ ·) (List.zipWith (· ^^^ ·) a b) (List.replicate a.length 0x00#8) =
      List.zipWith (· ^^^ ·) a b := by
    refine List.ext_getElem (by simp [h]) fun i _ _ => ?_
    simp
  have hseed : (0x0010#15 ^^^ 0x0010#15) ^^^ 0x0010#15 = 0x0010#15 := rfl
  have hthree := foldl_serialByte_xor (b := List.replicate a.length 0x00#8)
    (hsum.trans List.length_replicate.symm) (0x0010#15 ^^^ 0x0010#15) 0x0010#15
  rwa [hzero, hseed, foldl_serialByte_xor h] at hthree

/-- Settles O16. -/
theorem pecAlgebra : Obligations.PecAlgebra := by
  refine ⟨fun d => ?_, fun a b h => ?_⟩
  · rw [pecBytes_pecTable, pecBytes_pecTable]
    exact serialPec_of_remainder_zero (serialRemainder_append_serialPec d)
  · simp only [pecBytes_pecTable, serialPec_eq, serialRemainder_zipWith_xor h, BitVec.shiftLeft_xor_distrib,
      BitVec.extractLsb'_xor, List.zipWith_cons_cons, List.zipWith_nil_left]

/-- Eight bytes that a read's check accepts leave the register empty. -/
theorem serialRemainder_of_checkGroup {l : List Byte} (hlen : l.length = 8)
    (h : (checkGroup pecTable l).2 = true) : serialRemainder l = 0#15 := by
  obtain ⟨d, r6, r7, rfl⟩ := eq_six_append_two hlen
  rw [checkGroup_eq, pecMatches_eq_decide, decide_eq_true_eq, pecBytes_pecTable] at h
  rw [← h, serialRemainder_append_serialPec]

theorem checkGroup_append_pecBytes (d : Six) :
    (checkGroup pecTable (d.toList ++ pecBytes pecTable d.toList)).2 = true := by
  rw [pecBytes, checkGroup_eq, pecMatches_eq_decide]
  exact decide_eq_true rfl

theorem xor_shiftLeft_ne (c : Byte) {b : Nat} (hb : b < 8) : c ^^^ (1#8 <<< b) ≠ c := by
  intro h
  have hbit := congrArg (·.getLsbD b) h
  simp [hb] at hbit

/-- Settles O17: were the flipped message accepted too, both would leave the register empty, although they
differ in one byte. -/
theorem singleBitFlipRejected : Obligations.SingleBitFlipRejected := by
  intro d j b hj hb m
  have hlen : m.length = 8 := rfl
  have hm : (checkGroup pecTable m).2 = true := checkGroup_append_pecBytes d
  refine ⟨hm, Bool.eq_false_iff.mpr fun hflipped => ?_⟩
  have hjm : j < m.length := hj
  rw [List.getD_eq_getElem m _ hjm] at hflipped
  refine foldl_serialByte_set_ne hjm (xor_shiftLeft_ne m[j] hb) 0x0010#15 ?_
  exact (serialRemainder_of_checkGroup (by rw [List.length_set, hlen]) hflipped).trans
    (serialRemainder_of_checkGroup hlen hm).symm

end Sys2Proof.Proofs
end

section
/-! PROOFS. The frames sent (40_pec R135): every window the block opens carries a sound frame, and every step
keeps the table and the frames. -/

namespace Sys2Proof.Proofs

open Sys2Proof Sys2Proof.Machine Sys2Proof.Safety

/-! ### The frames the block makes (30_encoding R94 to R96) -/

/-- `F-CMD4` is an addressed command with its PEC. -/
theorem cmd4_pecTable (addr : BitVec 4) (cc : BitVec 11) : ∃ b0 b1 : Byte, b0.getLsbD 7 = true ∧
    cmd4 pecTable addr cc = [b0, b1] ++ serialPec [b0, b1] := by
  refine ⟨_, _, ?_, by rw [cmd4, pecAppend, pecBytes_pecTable, cmdFrame]⟩
  simp

theorem frameSound_cmd4 (txFill : Byte) (addr : BitVec 4) (cc : BitVec 11) :
    frameSound txFill (cmd4 pecTable addr cc) := by
  obtain ⟨b0, b1, haddressed, hcmd⟩ := cmd4_pecTable addr cc
  exact .inr ⟨b0, b1, haddressed, .inl hcmd⟩

theorem frameSound_readFrame (txFill : Byte) (ch : ChipConf) (cc : BitVec 11) :
    frameSound txFill (readFrame pecTable txFill ch cc) := by
  obtain ⟨b0, b1, haddressed, hcmd⟩ := cmd4_pecTable ch.addr cc
  exact .inr ⟨b0, b1, haddressed, .inr (.inl (by rw [readFrame, hcmd]))⟩

theorem frameSound_writeFrame (txFill : Byte) (addr : BitVec 4) (cc : BitVec 11) (d : Six) :
    frameSound txFill (cmd4 pecTable addr cc ++ pecAppend pecTable d.toList) := by
  obtain ⟨b0, b1, haddressed, hcmd⟩ := cmd4_pecTable addr cc
  refine .inr ⟨b0, b1, haddressed, .inr (.inr ⟨d, ?_⟩)⟩
  rw [hcmd, pecAppend, pecBytes_pecTable, List.append_assoc _ d.toList]

/-! ### The frames in the port activity -/

/-- What is sent in later activity depends on the earlier only by the window it leaves open. -/
theorem sentFrames_append (es : List PortEvent) (acc : List Byte) :
    ∃ opened, ∀ later, sentFrames (es ++ later) acc = sentFrames es acc ++ sentFrames later opened := by
  induction es generalizing acc with
  | nil => exact ⟨acc, fun _ => rfl⟩
  | cons e rest ih =>
    cases e with
    | cs line high =>
      cases high with
      | false => exact ih []
      | true =>
        obtain ⟨opened, hopened⟩ := ih []
        exact ⟨opened, fun later => congrArg (acc :: ·) (hopened later)⟩
    | xfer tx rx => exact ih (acc ++ [tx])
    | wait | wdKick | latchEn => exact ih acc

/-- Transfers extend the open window, and the line's rise closes it. -/
theorem sentFrames_xferEvents (line : Nat) {txs rxs : List Byte} (hlen : rxs.length = txs.length)
    (acc : List Byte) : sentFrames (xferEvents txs rxs ++ [.cs line true]) acc = [acc ++ txs] := by
  induction txs generalizing rxs acc with
  | nil => simp [xferEvents, sentFrames]
  | cons tx rest ih =>
    obtain ⟨rx, rest', rfl⟩ := List.exists_cons_of_length_eq_add_one hlen
    have hrest := ih (Nat.succ.inj hlen) (acc ++ [tx])
    rw [List.append_assoc, List.singleton_append] at hrest
    exact hrest

/-- A whole window sends one frame, whatever was open before it. -/
theorem sentFrames_window (line : Nat) {txs rxs : List Byte} (hlen : rxs.length = txs.length)
    (acc : List Byte) :
    sentFrames (.cs line false :: (xferEvents txs rxs ++ [.cs line true])) acc = [txs] :=
  sentFrames_xferEvents line hlen []

/-- Every frame sent so far through the ports is one the block may send. -/
def PortsSound (txFill : Byte) (p : Ports) : Prop := ∀ f ∈ sentFrames p.trace [], frameSound txFill f

/-- More activity keeps the ports sound if its own frames are, whatever window was left open. -/
theorem PortsSound.append {txFill : Byte} {p q : Ports} (h : PortsSound txFill p) {es : List PortEvent}
    (htrace : q.trace = p.trace ++ es) (hes : ∀ acc, ∀ f ∈ sentFrames es acc, frameSound txFill f) :
    PortsSound txFill q := by
  obtain ⟨opened, hopened⟩ := sentFrames_append p.trace []
  intro f hf
  rw [htrace, hopened, List.mem_append] at hf
  exact hf.elim (h f) (hes opened f)

/-! ### The bus transactions (42_transport) -/

section
variable {txFill : Byte} {table : Vector Code 256} {p : Ports}

theorem PortsSound.busWindow (h : PortsSound txFill p) (line : Nat) {txs : List Byte}
    (hframe : frameSound txFill txs) : PortsSound txFill (Machine.busWindow line txs p).2 := by
  have htrace : (Machine.busWindow line txs p).2.trace =
      p.trace ++ .cs line false :: (xferEvents txs (busAnswer p txs.length) ++ [.cs line true]) := by
    rw [busWindow_eq, afterWindow]
  refine h.append htrace fun acc f hf => ?_
  rw [sentFrames_window line (busAnswer_length p _), List.mem_singleton] at hf
  exact hf ▸ hframe

/-- A wake-up sends the one fill byte. -/
theorem PortsSound.wakeLine (h : PortsSound txFill p) (line : Nat) :
    PortsSound txFill (Machine.wakeLine txFill line p) := by
  have htrace : (Machine.wakeLine txFill line p).trace = p.trace ++
      [.cs line false, .wait tCsUs, .xfer txFill p.nextByte, .cs line true, .wait tWakeUs] := by
    simp [Machine.wakeLine, Ports.nextByte]
  refine h.append htrace fun acc f hf => .inl ?_
  exact List.mem_singleton.mp hf

theorem PortsSound.writeGroup (h : PortsSound txFill p) (htable : table = pecTable) (ch : ChipConf)
    (cc : BitVec 11) (d : Six) : PortsSound txFill (Machine.writeGroup table ch cc d p) :=
  htable ▸ h.busWindow ch.csLine (frameSound_writeFrame txFill ch.addr cc d)

theorem PortsSound.readGroup (h : PortsSound txFill p) (htable : table = pecTable) (ch : ChipConf)
    (cc : BitVec 11) : PortsSound txFill (Machine.readGroup table txFill ch cc p).2 :=
  htable ▸ h.busWindow ch.csLine (frameSound_readFrame txFill ch cc)

end

theorem PortsSound.startAdc {s : State} (h : PortsSound s.conf.txFill s.ports)
    (htable : s.pec.table = pecTable) (c : Nat) (ch : ChipConf) (kind : AdcKind) (mode : BitVec 2) :
    PortsSound s.conf.txFill (Machine.startAdc c ch kind mode s).ports := by
  have hwindow := h.busWindow ch.csLine (frameSound_cmd4 s.conf.txFill ch.addr (s.conf.codes.adc kind mode))
  rw [← htable] at hwindow
  exact hwindow

/-! ### The scheduler's transactions (43_scheduler) -/

section
variable {k : Config} {table : Vector Code 256} {p : Ports}

theorem PortsSound.readChip (h : PortsSound k.txFill p) (htable : table = pecTable) (g : ReadGroup)
    (ch : ChipConf) (c : Nat) (u : SchedUnit) :
    PortsSound k.txFill (Machine.readChip k table g ch c u p).2.2 := by
  unfold Machine.readChip
  split_ifs
  · exact h
  · exact h.readGroup htable ch _

theorem PortsSound.readChips (h : PortsSound k.txFill p) (htable : table = pecTable) (g : ReadGroup)
    (l : List (ChipConf × Nat)) (u : SchedUnit) :
    PortsSound k.txFill (Machine.readChips k table g l u p).2.2 := by
  induction l generalizing u p with
  | nil => exact h
  | cons x rest ih =>
    rw [readChips_cons]
    exact ih (h.readChip htable g x.1 x.2 u) _

theorem PortsSound.foldl {α : Type} {txFill : Byte} {f : Ports → α → Ports}
    (hf : ∀ q x, PortsSound txFill q → PortsSound txFill (f q x)) (l : List α) (h : PortsSound txFill p) :
    PortsSound txFill (l.foldl f p) := by
  induction l generalizing p with
  | nil => exact h
  | cons x rest ih => exact ih (hf p x h)

theorem PortsSound.preStep (h : PortsSound k.txFill p) (htable : table = pecTable) (u : SchedUnit) :
    PortsSound k.txFill (Machine.preStep k table u p) := by
  unfold Machine.preStep
  refine .foldl (fun q x hq => ?_) _ (.foldl (fun q line hq => ?_) _ h)
  · exact hq.writeGroup htable x.1 k.codes.wrcfg (cfgPack k.layout (u.chip x.2).cfg)
  · exact hq.wakeLine line

end

theorem PortsSound.schedRound {s : State} (h : PortsSound s.conf.txFill s.ports)
    (htable : s.pec.table = pecTable) (g : ReadGroup) :
    PortsSound s.conf.txFill (Machine.schedRound g s).2.ports := by
  refine PortsSound.readChips ?_ htable g _ _
  split_ifs
  · exact h.preStep htable s.sched
  · exact h

/-! ### The supervisor's outputs -/

/-- Neither the watchdog output nor the latch output closes a window. -/
theorem PortsSound.emit_output {txFill : Byte} {p : Ports} (h : PortsSound txFill p) {e : PortEvent}
    (he : ∀ acc, sentFrames [e] acc = []) : PortsSound txFill (p.emit e) :=
  h.append rfl fun acc f hf => by
    rw [he acc] at hf
    cases hf

theorem PortsSound.applyAction {txFill : Byte} {s : State} (h : PortsSound txFill s.ports) (a : Action) :
    PortsSound txFill (Machine.applyAction a s).ports := by
  cases a with
  | latchAssert | latchDeassert => exact h.emit_output fun _ => rfl
  | _ => exact h

theorem PortsSound.applyActions {txFill : Byte} {s : State} (h : PortsSound txFill s.ports)
    (l : List Action) : PortsSound txFill (Machine.applyActions l s).ports := by
  induction l generalizing s with
  | nil => exact h
  | cons a rest ih => exact ih (h.applyAction a)

theorem PortsSound.moveTo {txFill : Byte} {s : State} (h : PortsSound txFill s.ports) (n : AcuState)
    (now : Nat) : PortsSound txFill (Machine.moveTo n now s).ports :=
  PortsSound.applyActions (s := (Machine.applyActions (exitActions s.fsm.state) s).setAcuState n)
    (h.applyActions _) (entryActions now n)

theorem PortsSound.tickState {txFill : Byte} {s : State} (h : PortsSound txFill s.ports) (n : AcuState)
    (now : Nat) (bmsFault : Bool) : PortsSound txFill (Machine.tickState n now bmsFault s).ports := by
  unfold Machine.tickState
  split_ifs
  · exact h.applyActions _
  · exact h.moveTo .faulted now
  · exact h.moveTo .startup now
  · exact h.moveTo n now

theorem PortsSound.kickWatchdog {txFill : Byte} {s : State} (h : PortsSound txFill s.ports) :
    PortsSound txFill (Machine.kickWatchdog s).ports := by
  unfold Machine.kickWatchdog
  split_ifs
  · exact h.emit_output fun _ => rfl
  · exact h

/-! ### Every operation -/

/-- What an operation of `s` leaves when it sends sound frames only. -/
def SendsSound (s t : State) : Prop := PortsSound s.conf.txFill t.ports

/-- Behind the precondition of a built table an answer may rely on the table of `PEC.BUILD`. -/
theorem Leaves.requireTable {P : State → Prop} {s : State} (htable : tableSound s) {f : Unit → Answer}
    (h : s.pec.table = pecTable → Leaves P (f ())) : Leaves P (Machine.requireTable s >>= f) :=
  .require fun hbuilt => h (htable hbuilt)

theorem leaves_sendsSound_readCommand {s : State} (htable : tableSound s)
    (h : PortsSound s.conf.txFill s.ports) (g : ReadGroup) (line : Nat) (addr : BitVec 4) :
    Leaves (SendsSound s) (readCommand g line addr s) := by
  refine .requireTable htable fun hbuilt => .bind fun x => .done _ ?_
  rw [SendsSound, readReport_eq s.conf s.pec.table g x.1 x.2 s.sched]
  exact h.readChip hbuilt g x.1 x.2 s.sched

theorem leaves_sendsSound_schedNext {s : State} (htable : tableSound s)
    (h : PortsSound s.conf.txFill s.ports) :
    ∃ a, execSchedNext s = conclude s a ∧ Leaves (SendsSound s) a := by
  refine ⟨_, rfl, .requireTable htable fun hbuilt => ?_⟩
  split
  · exact .done _ (h.schedRound hbuilt _)
  · exact .done _ h

/-- Every operation sends sound frames only, given a sound table: the units that drive no port send none. -/
theorem exec_leaves_sendsSound (i : Instr) {s : State} (htable : tableSound s)
    (h : PortsSound s.conf.txFill s.ports) : ∃ a, exec i s = conclude s a ∧ Leaves (SendsSound s) a := by
  cases i with
  | spiWakeup line => exact ⟨_, rfl, .bind fun _ => .done _ (h.wakeLine line)⟩
  | spiWrreg _ _ _ =>
    exact ⟨_, rfl, .requireTable htable fun hbuilt => .bind fun ch => .bind fun code => .bind fun d =>
      .done _ (h.writeGroup hbuilt ch code d)⟩
  | spiRdreg _ _ =>
    exact ⟨_, rfl, .requireTable htable fun hbuilt => .bind fun ch => .bind fun code =>
      .done _ (h.readGroup hbuilt ch code)⟩
  | spiAdcstart c kind _ =>
    exact ⟨_, rfl, .requireTable htable fun hbuilt => .bind fun ch => .bind fun mode =>
      .done _ (h.startAdc hbuilt c ch kind mode)⟩
  | schedSetcfg _ _ => exact ⟨_, rfl, .bind fun _ => .bind fun _ => .done _ h⟩
  | schedNext => exact leaves_sendsSound_schedNext htable h
  | schedFaultdata => exact ⟨.ok _, rfl, .done _ h⟩
  | fsmAdvance now _ _ bmsFault _ => exact ⟨_, rfl, .bind fun _ => .done _ (h.tickState _ now bmsFault)⟩
  | wdKick => exact ⟨.ok _, rfl, .done _ h.kickWatchdog⟩
  | wrcfg _ _ =>
    exact ⟨_, rfl, .requireTable htable fun hbuilt => .bind fun x =>
      .done _ (h.writeGroup hbuilt x.1 _ _)⟩
  | rdcva line addr | rdcvb line addr | rdcvc line addr | rdcvd line addr | rdauxa line addr
  | rdauxb line addr => exact ⟨_, rfl, leaves_sendsSound_readCommand htable h _ line addr⟩
  | adc _ _ kind mode =>
    exact ⟨_, rfl, .requireTable htable fun hbuilt => .bind fun x =>
      .done _ (h.startAdc hbuilt x.2 x.1 kind mode)⟩
  | _ =>
    obtain ⟨a, hexec, hleaves⟩ := exec_leaves_writes _ s
    refine ⟨a, hexec, fun r t ha => ?_⟩
    rw [SendsSound, (hleaves r t ha).ownerFrame.ports (by simp [unitOf])]
    exact h

/-! ### Every step -/

/-- `PEC.BUILD` writes the table of the model, and no other operation writes a table. -/
theorem exec_keeps_tableSound {i : Instr} {s t : State} (h : tableSound s) (hexec : exec i s = .next t) :
    tableSound t := by
  cases i with
  | pecBuild =>
    obtain rfl := Host.Outcome.next.inj hexec
    exact fun _ => rfl
  | pecCompute data =>
    rw [exec_pecCompute] at hexec
    obtain rfl := Host.Outcome.next.inj hexec
    split_ifs <;> exact h
  | pecCheck data rx0 rx1 =>
    rw [exec_pecCheck] at hexec
    obtain rfl := Host.Outcome.next.inj hexec
    split_ifs <;> exact h
  | _ =>
    have hpec : t.pec = s.pec := (exec_ownerFrame hexec).pec (by simp [unitOf])
    rw [tableSound, hpec]
    exact h

theorem exec_keeps_framesSound {i : Instr} {s t : State} (htable : tableSound s) (h : framesSound s)
    (hexec : exec i s = .next t) : framesSound t := by
  have hconf : t.conf = s.conf := (exec_keeps_conf_reqs hexec).1
  have hports : PortsSound s.conf.txFill t.ports := by
    rcases Leaves.of_exec (exec_leaves_sendsSound i htable h) hexec with ⟨r, v, hv, rfl⟩ | ⟨why, rfl⟩
    · exact hv
    · exact h
  rw [framesSound, hconf]
  exact hports

/-- Settles O55: the frames need the table, and the table stands for itself. -/
theorem stepKeepsFramesSound : Obligations.StepKeepsFramesSound := by
  intro s t htable hframes hstep
  exact step_keeps (P := fun s => tableSound s ∧ framesSound s)
    (fun _ h => h) (fun _ _ h => h) (fun _ _ h => h)
    (fun _ _ _ h hexec => ⟨exec_keeps_tableSound h.1 hexec, exec_keeps_framesSound h.1 h.2 hexec⟩)
    ⟨htable, hframes⟩ hstep

end Sys2Proof.Proofs
end

section
/-! PROOFS. The codec (41_codec): the operand forms of its operations, packing and unpacking of the
configuration fields in every layout and in that of 30_encoding R99 to R103, and the conversions. -/

namespace Sys2Proof.Proofs

open Sys2Proof Sys2Proof.Machine Sys2Proof.Safety

/-! ### Operand forms of the codec -/

/-- An operation on two numbers of fixed widths that writes nothing: refused when either is out of range. -/
theorem conclude_two_fields {w v : Nat} (why : RefusalReason) (a b : Nat)
    (result : BitVec w → BitVec v → Result) (s : State) :
    conclude s (do
      let x ← orRefuse why (field w a)
      let y ← orRefuse why (field v b)
      return (result x y, s)) =
    .next (if a < 2 ^ w ∧ b < 2 ^ v then finish (result (BitVec.ofNat w a) (BitVec.ofNat v b)) s
      else refuse why s) := by
  by_cases ha : a < 2 ^ w
  · by_cases hb : b < 2 ^ v
    · simp [field_of_lt, ha, hb]
    · simp [field_of_lt ha, field_of_ge (Nat.not_lt.mp hb), hb]
  · simp [field_of_ge (Nat.not_lt.mp ha), ha]

theorem exec_codecCfgunpack (d : Six) (s : State) :
    exec (.codecCfgunpack d.toList) s = .next (finish (.fields (cfgUnpack s.conf.layout d)) s) := by
  simp [exec, execCodecCfgunpack, sixBytes_eq_some.mpr rfl]

theorem exec_codecCfgpack {f : CfgArg} {g : CfgFields} (hf : cfgFields f = some g) (s : State) :
    exec (.codecCfgpack f) s = .next (finish (.bytes (cfgPack s.conf.layout g).toList) s) := by
  simp [exec, execCodecCfgpack, hf]

theorem exec_codecGrpunpack (d : Six) (s : State) :
    exec (.codecGrpunpack d.toList) s = .next (finish (.codes (groupCodes d)) s) := by
  simp [exec, execCodecGrpunpack, sixBytes_eq_some.mpr rfl]

/-! ### Bit fields as numbers -/

/-- Adjacent bit fields as a number. -/
theorem toNat_append_eq_add {w v : Nat} (x : BitVec w) (y : BitVec v) :
    (x ++ y).toNat = x.toNat * 2 ^ v + y.toNat := by
  rw [BitVec.toNat_append, ← Nat.shiftLeft_add_eq_or_of_lt y.isLt, Nat.shiftLeft_eq]

/-! ### The command frame (41_codec R151) -/

/-- Settles O18: the frame in the formulas of 30_encoding R91, whose fields do not overlap. -/
theorem codecCmdBytes : Obligations.CodecCmdBytes := by
  intro s addr cc
  have hrange : addr < 2 ^ 4 ∧ cc < 2 ^ 11 ↔ addr < 16 ∧ cc < 2048 := Iff.rfl
  change execCodecCmd addr cc s = _
  rw [execCodecCmd, conclude_two_fields, if_congr hrange rfl rfl]
  split_ifs with h
  · obtain ⟨haddr, hcc⟩ := hrange.mpr h
    rw [cmdFrame_eq_commandBytes, BitVec.toNat_ofNat, BitVec.toNat_ofNat, Nat.mod_eq_of_lt haddr,
      Nat.mod_eq_of_lt hcc, commandBytes]
  · rfl

/-! ### The configuration operand form -/

/-- The fields at their widths hold exactly the numbers of the argument. -/
structure SameFields (g : CfgFields) (f : CfgArg) : Prop where
  gpioEnable : g.gpioEnable.toNat = f.gpioEnable
  refon : g.refon.toNat = f.refon
  adcopt : g.adcopt.toNat = f.adcopt
  vuv : g.vuv.toNat = f.vuv
  vov : g.vov.toNat = f.vov
  dcc : g.dcc.toNat = f.dcc
  dcto : g.dcto.toNat = f.dcto

theorem exists_cfgFields_of_inRange {f : CfgArg} (h : f.inRange = true) :
    ∃ g, cfgFields f = some g ∧ SameFields g f := by
  refine ⟨_, cfgFields_of_inRange h, ?_⟩
  simp only [CfgArg.inRange, Bool.and_eq_true, decide_eq_true_eq] at h
  obtain ⟨⟨⟨⟨⟨⟨hgpio, hrefon⟩, hadcopt⟩, hvuv⟩, hvov⟩, hdcc⟩, hdcto⟩ := h
  exact ⟨Nat.mod_eq_of_lt hgpio, Nat.mod_eq_of_lt hrefon, Nat.mod_eq_of_lt hadcopt, Nat.mod_eq_of_lt hvuv,
    Nat.mod_eq_of_lt hvov, Nat.mod_eq_of_lt hdcc, Nat.mod_eq_of_lt hdcto⟩

/-! ### Packing and unpacking in every layout (30_encoding R98) -/

theorem placedBit_eq_false {pos : List Nat} {p : Nat} (h : p ∉ pos) (bit : Nat → Bool) :
    placedBit pos bit p = false := by
  rw [placedBit, List.any_eq_false]
  rintro ⟨q, i⟩ hq
  have hne : q ≠ p := fun heq => h (heq ▸ List.fst_mem_of_mem_zipIdx hq)
  simp [hne]

theorem placedBit_getElem {pos : List Nat} (h : pos.Nodup) (bit : Nat → Bool) {i : Nat}
    (hi : i < pos.length) : placedBit pos bit pos[i] = bit i := by
  rw [placedBit, Bool.eq_iff_iff, List.any_eq_true]
  constructor
  · rintro ⟨⟨q, j⟩, hmem, hbit⟩
    have hj : pos[j]? = some q := List.mem_zipIdx_iff_getElem?.mp hmem
    obtain ⟨hlt, rfl⟩ := List.getElem?_eq_some_iff.mp hj
    simp only [Bool.and_eq_true, beq_iff_eq, h.getElem_inj_iff] at hbit
    obtain ⟨rfl, hbit⟩ := hbit
    exact hbit
  · intro hbit
    exact ⟨(pos[i], i), List.mem_zipIdx_iff_getElem?.mpr (List.getElem?_eq_getElem hi), by simp [hbit]⟩

/-- Where no two fields share a position, the image has each field's bits at its positions. -/
theorem any_placedBit_getElem {fields : List (List Nat × (Nat → Bool))}
    (hnodup : (fields.flatMap Prod.fst).Nodup) {pos : List Nat} {bit : Nat → Bool}
    (hmem : (pos, bit) ∈ fields) {i : Nat} (hi : i < pos.length) :
    (fields.any fun x => placedBit x.1 x.2 pos[i]) = bit i := by
  induction fields with
  | nil => cases hmem
  | cons x rest ih =>
    rw [List.flatMap_cons, List.nodup_append'] at hnodup
    obtain ⟨hx, hrest, hdisjoint⟩ := hnodup
    rw [List.any_cons]
    rcases List.mem_cons.mp hmem with rfl | hmem
    · have hothers : (rest.any fun y => placedBit y.1 y.2 pos[i]) = false := by
        refine List.any_eq_false.mpr fun y hy => ?_
        have hnotMem : pos[i] ∉ y.1 := fun hp =>
          hdisjoint (List.getElem_mem hi) (List.mem_flatMap.mpr ⟨y, hy, hp⟩)
        simp [placedBit_eq_false hnotMem]
      rw [hothers, placedBit_getElem hx, Bool.or_false]
    · have hnotMem : pos[i] ∉ x.1 := fun hp =>
        hdisjoint hp (List.mem_flatMap.mpr ⟨_, hmem, List.getElem_mem hi⟩)
      rw [placedBit_eq_false hnotMem, ih hrest hmem, Bool.false_or]

theorem flatMap_placedFields (l : CfgLayout) (f : CfgFields) :
    (placedFields l f).flatMap Prod.fst = l.positions := by
  simp [placedFields, CfgLayout.positions]

/-- What a valid layout fixes: each field's width, no position past the six bytes, and none twice. -/
structure LayoutFits (l : CfgLayout) : Prop where
  gpioEnable : l.gpioEnable.length = 5
  refon : l.refon.length = 1
  adcopt : l.adcopt.length = 1
  vuv : l.vuv.length = 12
  vov : l.vov.length = 12
  dcc : l.dcc.length = 12
  dcto : l.dcto.length = 4
  lt_48 : ∀ p ∈ l.positions, p < 48
  nodup : l.positions.Nodup

theorem LayoutFits.of_valid {l : CfgLayout} (h : l.valid = true) : LayoutFits l := by
  simp only [CfgLayout.valid, Bool.and_eq_true, beq_iff_eq, List.all_eq_true, decide_eq_true_eq] at h
  obtain ⟨⟨⟨⟨⟨⟨⟨⟨⟨⟨hgpio, hrefon⟩, hadcopt⟩, hvuv⟩, hvov⟩, hdcc⟩, hdcto⟩, hbyte0⟩, hbytes1⟩, hbytes4⟩,
    hnodup⟩ := h
  refine ⟨hgpio, hrefon, hadcopt, hvuv, hvov, hdcc, hdcto, fun p hp => ?_, hnodup⟩
  have hsplit : l.positions =
      (l.gpioEnable ++ l.refon ++ l.adcopt) ++ (l.vuv ++ l.vov) ++ (l.dcc ++ l.dcto) := by
    simp [CfgLayout.positions]
  rw [hsplit, List.mem_append, List.mem_append] at hp
  rcases hp with (hp | hp) | hp
  · have := hbyte0 p hp
    omega
  · have := hbytes1 p hp
    omega
  · exact (hbytes4 p hp).2

/-- The bits gathered from a packed record at a field's positions are that field. -/
theorem ofNat_gather_cfgPack {l : CfgLayout} (hl : LayoutFits l) {f : CfgFields} {w : Nat}
    {pos : List Nat} {x : BitVec w} (hmem : (pos, x.getLsbD) ∈ placedFields l f) (hlen : pos.length = w) :
    BitVec.ofNat w (gather (cfgPack l f) pos) = x := by
  refine BitVec.eq_of_getLsbD_eq fun i hi => ?_
  have hpos : i < pos.length := hlen ▸ hi
  have hposition : pos[i] ∈ l.positions :=
    flatMap_placedFields l f ▸ List.mem_flatMap.mpr ⟨_, hmem, List.getElem_mem hpos⟩
  have hlt : pos[i] < 48 := hl.lt_48 _ hposition
  have himage : imageBit l f pos[i] = x.getLsbD i :=
    any_placedBit_getElem (flatMap_placedFields l f ▸ hl.nodup) hmem hpos
  rw [BitVec.getLsbD_ofNat, testBit_gather, List.getElem?_eq_getElem hpos]
  simp [sixBit_cfgPack l f hlt, himage, hi]

/-- `CODEC.CFGUNPACK` undoes `CODEC.CFGPACK` (41_codec R153). -/
theorem cfgUnpack_cfgPack {l : CfgLayout} (hl : LayoutFits l) (f : CfgFields) :
    cfgUnpack l (cfgPack l f) = f := by
  rw [cfgUnpack,
    ofNat_gather_cfgPack hl (x := f.gpioEnable) (by simp [placedFields]) hl.gpioEnable,
    ofNat_gather_cfgPack hl (x := f.refon) (by simp [placedFields]) hl.refon,
    ofNat_gather_cfgPack hl (x := f.adcopt) (by simp [placedFields]) hl.adcopt,
    ofNat_gather_cfgPack hl (x := f.vuv) (by simp [placedFields]) hl.vuv,
    ofNat_gather_cfgPack hl (x := f.vov) (by simp [placedFields]) hl.vov,
    ofNat_gather_cfgPack hl (x := f.dcc) (by simp [placedFields]) hl.dcc,
    ofNat_gather_cfgPack hl (x := f.dcto) (by simp [placedFields]) hl.dcto]

/-! ### The configuration operations (41_codec R152, R153) -/

/-- Settles O19: the packed bytes are the fields put side by side. -/
theorem cfgPackBytes : Obligations.CfgPackBytes := by
  intro s f
  refine ⟨fun hlayout hrange => ?_, fun hrange => ?_⟩
  · obtain ⟨g, hg, hfields⟩ := exists_cfgFields_of_inRange hrange
    refine ⟨_, exec_codecCfgpack hg s, ?_⟩
    rw [hlayout, cfgPack_default]
    simp only [← hfields.gpioEnable, ← hfields.refon, ← hfields.adcopt, ← hfields.vuv, ← hfields.vov,
      ← hfields.dcc, ← hfields.dcto, toNat_append_eq_add, BitVec.extractLsb'_toNat,
      Nat.shiftRight_eq_div_pow, BitVec.toNat_ofNat]
    omega
  · simp [exec, execCodecCfgpack, cfgFields_of_not_inRange hrange]

/-- Settles O20: in the default layout by its closed form, in every valid one by the round trip. -/
theorem cfgUnpackFields : Obligations.CfgUnpackFields := by
  refine ⟨fun s d hlayout => ?_, fun s f hvalid hrange => ?_, fun s l hlen => ?_⟩
  · refine ⟨_, exec_codecCfgunpack d s, ?_⟩
    rw [hlayout, cfgUnpack_default]
    simp only [toNat_append_eq_add, BitVec.extractLsb'_toNat, Nat.shiftRight_eq_div_pow, true_and]
    omega
  · obtain ⟨g, hg, hfields⟩ := exists_cfgFields_of_inRange hrange
    have hunpack := exec_codecCfgunpack (cfgPack s.conf.layout g) s
    rw [cfgUnpack_cfgPack (.of_valid hvalid)] at hunpack
    exact ⟨_, g, exec_codecCfgpack hg s, hunpack, hfields.gpioEnable, hfields.refon, hfields.adcopt,
      hfields.vuv, hfields.vov, hfields.dcc, hfields.dcto⟩
  · simp [exec, execCodecCfgunpack, sixBytes_eq_none.mpr hlen]

/-! ### Group codes and comparison voltages (41_codec R154, R155) -/

/-- Settles O21: each code is two bytes side by side, the second byte high. -/
theorem grpUnpackCodes : Obligations.GrpUnpackCodes := by
  refine ⟨fun s d => ⟨_, exec_codecGrpunpack d s, ?_⟩, fun s l hlen => ?_⟩
  · simp only [groupCodes, toNat_append_eq_add]
    omega
  · simp [exec, execCodecGrpunpack, sixBytes_eq_none.mpr hlen]

/-- Settles O22: an operand in range is its own value at 12 bits. -/
theorem cmpvValues : Obligations.CmpvValues := by
  intro s vuv vov
  have hrange : vuv < 2 ^ 12 ∧ vov < 2 ^ 12 ↔ vuv ≤ 4095 ∧ vov ≤ 4095 := by omega
  change execCodecCmpv vuv vov s = _
  rw [execCodecCmpv, conclude_two_fields, if_congr hrange rfl rfl]
  split_ifs with h
  · obtain ⟨huv, hov⟩ := hrange.mpr h
    rw [uvCompareCode, ovCompareCode, BitVec.toNat_ofNat, BitVec.toNat_ofNat, Nat.mod_eq_of_lt huv,
      Nat.mod_eq_of_lt hov]
  · rfl

/-! ### Conversions (41_codec R156 to R159) -/

theorem boardTemp_eq (code : Code) : boardTemp code = -(535 / 8) + 7 / 1600 * (code.toNat : Rat) := by
  rw [boardTemp, codeFraction]
  ring

theorem humidity_eq (code : Code) : humidity code = -(25 / 2) + 1 / 400 * (code.toNat : Rat) := by
  rw [humidity, codeFraction]
  ring

/-- Settles O23: the two linear conversions, with the factors multiplied out. -/
theorem boardTempAndHumidity : Obligations.BoardTempAndHumidity := by
  intro s code
  rw [← boardTemp_eq, ← humidity_eq]
  exact ⟨rfl, rfl⟩

/-- The formula of 41_codec R158, for the codes and reciprocals where it has a value. -/
theorem thermistorTemp_eq {k : Config} {code : Code} (open_ : Rat) (hpos : 1 ≤ code.toNat)
    (hlt : code.toNat < 50000) (hinverse : inverseKelvin k code ≠ 0) :
    thermistorTemp k open_ code = 1 / inverseKelvin k code - 27315 / 100 := by
  have hcode : ¬ (code = 0#16 ∨ 50000 ≤ code.toNat) := by
    rintro (rfl | hge)
    · exact absurd hpos (by decide)
    · omega
  rw [thermistorTemp, if_neg hcode, if_neg hinverse]

/-- Settles O24: `D` is the reciprocal absolute temperature of the model. -/
theorem thermistorValue : Obligations.ThermistorValue := by
  intro s code R D
  have hD : D = inverseKelvin s.conf code := by
    have hroom : (1 : Rat) / (29815 / 100) = 100 / 29815 := by norm_num
    rw [inverseKelvin, ← hroom]
    rfl
  refine ⟨_, rfl, fun hpos hlt => or_iff_not_imp_left.mpr fun hne => ?_⟩
  rw [hD] at hne ⊢
  exact thermistorTemp_eq _ hpos hlt hne

end Sys2Proof.Proofs
end

section
/-! PROOFS. The transport (42_transport): what an operation can do to the ports, the chip-select discipline
under every step, and the wake-up and the conversion start in closed form. -/

namespace Sys2Proof.Proofs

open Sys2Proof Sys2Proof.Machine Sys2Proof.Safety

/-! ### What an operation can do to the ports -/

/-- The ports that the block can reach from `p`, one piece of activity after another: a chip-select window,
a wake-up, a reading of the clock, or a level of an output that is not on the bus. -/
inductive PortMoves (p : Ports) : Ports → Prop where
  | refl : PortMoves p p
  | window {q : Ports} (h : PortMoves p q) (line : Nat) (txs : List Byte) :
      PortMoves p (Machine.busWindow line txs q).2
  | wake {q : Ports} (h : PortMoves p q) (txFill : Byte) (line : Nat) :
      PortMoves p (wakeLine txFill line q)
  | clock {q : Ports} (h : PortMoves p q) : PortMoves p q.nowUs.2
  | latchEn {q : Ports} (h : PortMoves p q) (level : Bool) : PortMoves p (q.emit (.latchEn level))
  | wdKick {q : Ports} (h : PortMoves p q) (level : Bool) : PortMoves p (q.emit (.wdKick level))

section
variable {p q : Ports}

theorem PortMoves.readChip (h : PortMoves p q) (k : Config) (table : Vector Code 256) (g : ReadGroup)
    (ch : ChipConf) (c : Nat) (u : SchedUnit) : PortMoves p (Machine.readChip k table g ch c u q).2.2 := by
  unfold Machine.readChip
  split_ifs
  · exact h
  · exact h.window ..

theorem PortMoves.readChips (h : PortMoves p q) (k : Config) (table : Vector Code 256) (g : ReadGroup)
    (l : List (ChipConf × Nat)) (u : SchedUnit) :
    PortMoves p (Machine.readChips k table g l u q).2.2 := by
  induction l generalizing u q with
  | nil => exact h
  | cons x rest ih =>
    rw [readChips_cons]
    exact ih (h.readChip k table g x.1 x.2 u) _

theorem PortMoves.preStep (h : PortMoves p q) (k : Config) (table : Vector Code 256) (u : SchedUnit) :
    PortMoves p (Machine.preStep k table u q) :=
  have hwoken := List.foldlRecOn (motive := PortMoves p) (usedLines k) _ h fun _ hq line _ =>
    hq.wake k.txFill line
  List.foldlRecOn (motive := PortMoves p) (numberedChips k) _ hwoken fun _ hq _ _ => hq.window ..

end

theorem portMoves_schedRound (g : ReadGroup) (s : State) :
    PortMoves s.ports (schedRound g s).2.ports := by
  refine PortMoves.readChips ?_ ..
  split_ifs
  · exact PortMoves.refl.preStep ..
  · exact .refl

/-! ### The supervisor's activity -/

section
variable {p : Ports} {s : State}

theorem PortMoves.applyAction (h : PortMoves p s.ports) (a : Action) :
    PortMoves p (Machine.applyAction a s).ports := by
  cases a with
  | latchAssert | latchDeassert => exact h.latchEn _
  | _ => exact h

theorem PortMoves.applyActions (h : PortMoves p s.ports) (l : List Action) :
    PortMoves p (Machine.applyActions l s).ports :=
  List.foldlRecOn (motive := fun t : State => PortMoves p t.ports) l _ h fun _ ht a _ => ht.applyAction a

theorem PortMoves.moveTo (h : PortMoves p s.ports) (n : AcuState) (now : Nat) :
    PortMoves p (Machine.moveTo n now s).ports :=
  have hexit := h.applyActions (exitActions s.fsm.state)
  PortMoves.applyActions (s := (Machine.applyActions (exitActions s.fsm.state) s).setAcuState n) hexit
    (entryActions now n)

theorem PortMoves.tickState (h : PortMoves p s.ports) (n : AcuState) (now : Nat) (bmsFault : Bool) :
    PortMoves p (Machine.tickState n now bmsFault s).ports := by
  unfold Machine.tickState
  split_ifs
  · exact h.applyActions _
  · exact h.moveTo .faulted now
  · exact h.moveTo .startup now
  · exact h.moveTo n now

theorem PortMoves.kickWatchdog (h : PortMoves p s.ports) :
    PortMoves p (Machine.kickWatchdog s).ports := by
  unfold Machine.kickWatchdog
  split_ifs
  · exact h.wdKick _
  · exact h

end

/-! ### The activity of every operation -/

/-- What an operation of `s` leaves when its port activity is made of the pieces above. -/
def MovesPorts (s t : State) : Prop := PortMoves s.ports t.ports

theorem leaves_movesPorts_readCommand (g : ReadGroup) (line : Nat) (addr : BitVec 4) (s : State) :
    Leaves (MovesPorts s) (readCommand g line addr s) := by
  refine .bind fun _ => .bind fun x => .done _ ?_
  rw [MovesPorts, readReport_eq s.conf s.pec.table g x.1 x.2 s.sched]
  exact PortMoves.refl.readChip ..

/-- `SCHED.NEXT` in its two cases: a round over the chips, and the restart of an illegal `GRP`, which is
silent. -/
theorem leaves_movesPorts_schedNext (s : State) :
    ∃ a, execSchedNext s = conclude s a ∧ Leaves (MovesPorts s) a := by
  refine ⟨_, rfl, .bind fun _ => ?_⟩
  split
  · exact .done _ (portMoves_schedRound _ s)
  · exact .done _ .refl

/-- The port activity of every operation is made of those pieces; the units that drive no port have none. -/
theorem exec_leaves_movesPorts (i : Instr) (s : State) :
    ∃ a, exec i s = conclude s a ∧ Leaves (MovesPorts s) a := by
  cases i with
  | spiWakeup line => exact ⟨_, rfl, .bind fun _ => .done _ (.wake .refl _ line)⟩
  | spiWrreg _ _ _ =>
    exact ⟨_, rfl, .bind fun _ => .bind fun _ => .bind fun _ => .bind fun _ => .done _ (.window .refl ..)⟩
  | spiRdreg _ _ =>
    exact ⟨_, rfl, .bind fun _ => .bind fun _ => .bind fun _ => .done _ (.window .refl ..)⟩
  | spiAdcstart _ _ _ =>
    exact ⟨_, rfl, .bind fun _ => .bind fun _ => .bind fun _ => .done _ (.clock (.window .refl ..))⟩
  | schedSetcfg _ _ => exact ⟨_, rfl, .bind fun _ => .bind fun _ => .done _ .refl⟩
  | schedNext => exact leaves_movesPorts_schedNext s
  | schedFaultdata => exact ⟨.ok _, rfl, .done _ .refl⟩
  | fsmAdvance now _ _ bmsFault _ =>
    exact ⟨_, rfl, .bind fun _ => .done _ (PortMoves.refl.tickState _ now bmsFault)⟩
  | wdKick => exact ⟨.ok _, rfl, .done _ PortMoves.refl.kickWatchdog⟩
  | wrcfg _ _ => exact ⟨_, rfl, .bind fun _ => .bind fun _ => .done _ (.window .refl ..)⟩
  | rdcva line addr | rdcvb line addr | rdcvc line addr | rdcvd line addr | rdauxa line addr
  | rdauxb line addr => exact ⟨_, rfl, leaves_movesPorts_readCommand _ line addr s⟩
  | adc _ _ _ _ => exact ⟨_, rfl, .bind fun _ => .bind fun _ => .done _ (.clock (.window .refl ..))⟩
  | _ =>
    obtain ⟨a, hexec, hleaves⟩ := exec_leaves_writes _ s
    refine ⟨a, hexec, fun r t ha => ?_⟩
    rw [MovesPorts, (hleaves r t ha).ownerFrame.ports (by simp [unitOf])]
    exact .refl

theorem exec_portMoves {i : Instr} {s t : State} (h : exec i s = .next t) : PortMoves s.ports t.ports := by
  rcases Leaves.of_exec (exec_leaves_movesPorts i s) h with ⟨r, v, hv, rfl⟩ | ⟨why, rfl⟩
  · exact hv
  · exact .refl

/-! ### The chip-select discipline (42_transport R189) -/

/-- Later activity is scanned from the line that the earlier leaves low. -/
theorem csScan_append (es later : List PortEvent) (low : Option Nat) :
    csScan (es ++ later) low = (csScan es low).bind (csScan later) := by
  fun_induction csScan es low with
  | case1 | case3 | case6 | case8 => rfl
  | case2 _ _ ih | case7 _ _ _ _ ih | case9 _ _ _ ih | case10 _ _ _ ih | case11 _ _ _ ih => exact ih
  | case4 rest line ih => exact (if_pos rfl).trans ih
  | case5 line rest other hne => exact if_neg hne

/-- Bytes may move while a line is low, and leave it low. -/
theorem csScan_xferEvents (txs rxs : List Byte) (line : Nat) :
    csScan (xferEvents txs rxs) (some line) = some (some line) := by
  induction txs generalizing rxs with
  | nil => rfl
  | cons tx rest ih =>
    cases rxs with
    | nil => rfl
    | cons rx answers => exact ih answers

/-- A whole window goes from all lines high to all lines high. -/
theorem csScan_window (line : Nat) (txs rxs : List Byte) :
    csScan (.cs line false :: (xferEvents txs rxs ++ [.cs line true])) none = some none := by
  change csScan (xferEvents txs rxs ++ [.cs line true]) (some line) = some none
  rw [csScan_append, csScan_xferEvents]
  exact if_pos rfl

/-- The discipline holds over all activity so far, and every line is high. -/
structure BusIdle (p : Ports) : Prop where
  disciplined : csScan p.trace none = some none
  high : p.csLow = []

/-- Activity that itself goes from all lines high to all lines high keeps the bus idle. -/
theorem BusIdle.append {p q : Ports} (h : BusIdle p) {es : List PortEvent}
    (htrace : q.trace = p.trace ++ es) (hes : csScan es none = some none) (hhigh : q.csLow = p.csLow) :
    BusIdle q where
  disciplined := by rw [htrace, csScan_append, h.disciplined, Option.bind_some, hes]
  high := hhigh.trans h.high

theorem BusIdle.busWindow {p : Ports} (h : BusIdle p) (line : Nat) (txs : List Byte) :
    BusIdle (Machine.busWindow line txs p).2 := by
  rw [busWindow_high h.high]
  exact h.append rfl (csScan_window line txs _) rfl

theorem BusIdle.wakeLine {p : Ports} (h : BusIdle p) (txFill : Byte) (line : Nat) :
    BusIdle (Machine.wakeLine txFill line p) := by
  obtain ⟨now, -, hwake⟩ := wakeLine_high h.high txFill line
  rw [hwake]
  exact h.append rfl (if_pos rfl) rfl

theorem BusIdle.portMoves {p q : Ports} (h : BusIdle p) (hmoves : PortMoves p q) : BusIdle q := by
  induction hmoves with
  | refl => exact h
  | window _ line txs ih => exact ih.busWindow line txs
  | wake _ txFill line ih => exact ih.wakeLine txFill line
  | clock _ ih => exact ⟨ih.disciplined, ih.high⟩
  | latchEn _ level ih => exact ih.append rfl rfl rfl
  | wdKick _ level ih => exact ih.append rfl rfl rfl

/-- Settles O54: every piece of port activity that an operation can make keeps the bus idle. -/
theorem stepKeepsBusDiscipline : Obligations.StepKeepsBusDiscipline := by
  intro s t hdisciplined hhigh hstep
  have hidle : BusIdle t.ports := step_keeps (P := fun s => BusIdle s.ports)
    (fun _ h => h) (fun _ _ h => h) (fun _ _ h => h) (fun _ _ _ h hexec => h.portMoves (exec_portMoves hexec))
    ⟨hdisciplined, hhigh⟩ hstep
  exact ⟨hidle.disciplined, hidle.high⟩

/-! ### The wake-up (42_transport R182) -/

theorem usesLine_iff (k : Config) (line : Nat) :
    usesLine k line = true ↔ ∃ ch ∈ k.chips, ch.csLine = line := by
  simp [usesLine]

theorem exec_spiWakeup (line : Nat) (s : State) :
    exec (.spiWakeup line) s = .next
      (if usesLine s.conf line then
        finish .none { s with ports := wakeLine s.conf.txFill line s.ports }
      else refuse .badLine s) := by
  change execSpiWakeup line s = _
  cases h : usesLine s.conf line <;> simp [execSpiWakeup, h]

theorem busAnswer_one (p : Ports) : busAnswer p 1 = [p.nextByte] := busAnswer_succ p 0 0

/-- Settles O25: the wake-up from all lines high, with the byte that the bus answers next. -/
theorem wakeupActivity : Obligations.WakeupActivity := by
  intro s line hhigh
  refine ⟨fun hused => ?_, fun hunused => ?_⟩
  · obtain ⟨now, hnow, hwake⟩ := wakeLine_high hhigh s.conf.txFill line
    refine ⟨s.ports.nextByte, now, busAnswer_one s.ports, hnow, ?_⟩
    rw [exec_spiWakeup, if_pos ((usesLine_iff s.conf line).mpr hused), hwake, List.drop_one]
    rfl
  · have hnot : ¬ usesLine s.conf line = true := fun h =>
      have ⟨ch, hmem, hline⟩ := (usesLine_iff s.conf line).mp h
      hunused ch hmem hline
    rw [exec_spiWakeup, if_neg hnot]

/-! ### The conversion start (42_transport R185, R186) -/

/-- `F-CMD4`: the command frame and its PEC. -/
theorem cmd4_eq_commandBytes (table : Vector Code 256) (addr : BitVec 4) (cc : BitVec 11) :
    cmd4 table addr cc =
      commandBytes addr.toNat cc.toNat ++ pecBytes table (commandBytes addr.toNat cc.toNat) := by
  rw [cmd4, pecAppend, cmdFrame_eq_commandBytes]

theorem adcDelayUs_ofNat {mode : Nat} (h : mode < 4) :
    adcDelayUs (BitVec.ofNat 2 mode) = [13000, 1300, 3100, 203000].getD mode 0 := by
  interval_cases mode <;> rfl

/-- `SPI.ADCSTART` with its operands in range starts the conversion. -/
theorem exec_spiAdcstart {s : State} {c mode : Nat} {ch : ChipConf} (hbuilt : s.pec.tableValid = true)
    (hchip : s.conf.chips[c]? = some ch) (hmode : mode < 2 ^ 2) (kind : AdcKind) :
    exec (.spiAdcstart c kind mode) s =
      .next (finish .none (startAdc c ch kind (BitVec.ofNat 2 mode) s)) := by
  simp [exec, execSpiAdcstart, requireTable_built hbuilt, chipConf, hchip, field_of_lt hmode]

/-- A conversion start from all lines high: one window, then one reading of the clock. -/
theorem startAdc_high {s : State} (hhigh : s.ports.csLow = []) (c : Nat) (ch : ChipConf) (kind : AdcKind)
    (mode : BitVec 2) :
    let w := afterWindow ch.csLine (cmd4 s.pec.table ch.addr (s.conf.codes.adc kind mode)) s.ports
    startAdc c ch kind mode s =
      { s with ports := w.nowUs.2, adcReadyAt := s.adcReadyAt.set c (w.nowUs.1 + adcDelayUs mode) } := by
  rw [startAdc, busWindow_high hhigh]

/-- Settles O28: the reading is the clock's last one and its own lapse. -/
theorem adcstartFrame : Obligations.AdcstartFrame := by
  intro s c mode kind ch hbuilt hhigh hchip hmode cmd w
  refine ⟨s.ports.clkUs + s.ports.lapse, Nat.le_add_right .., ?_⟩
  rw [exec_spiAdcstart hbuilt hchip hmode, startAdc_high hhigh, adcDelayUs_ofNat hmode, cmd4_eq_commandBytes]
  rfl

end Sys2Proof.Proofs
end

section
/-! PROOFS. The scheduler (43_scheduler): the configuration image, the wire commands, the round of `SCHED.NEXT`
as a sequence of wire commands and in its effect on each pair, the position over many rounds, and the maxima
of the counters. -/

namespace Sys2Proof.Proofs

open Sys2Proof Sys2Proof.Machine Sys2Proof.Safety

/-! ### `SCHED.SETCFG` (43_scheduler R201) -/

theorem cfg_setCfg_same {u : SchedUnit} {c : Nat} (h : c < u.chips.length) (f : CfgFields) :
    ((u.setCfg c f).chip c).cfg = f := by
  rw [SchedUnit.setCfg, chip_setChip_same h]

theorem chip_setCfg_ne {u : SchedUnit} {c d : Nat} (h : d ≠ c) (f : CfgFields) :
    (u.setCfg c f).chip d = u.chip d :=
  chip_setChip_ne h _

theorem exec_schedSetcfg {s : State} {c : Nat} {f : CfgArg} {fields : CfgFields} (hc : c < s.conf.nChips)
    (hf : cfgFields f = some fields) :
    exec (.schedSetcfg c f) s = .next (finish .none { s with sched := s.sched.setCfg c fields }) := by
  have hchip : chipConf s.conf c = some s.conf.chips[c] := List.getElem?_eq_getElem hc
  simp [exec, execSchedSetcfg, hchip, hf]

theorem exec_schedSetcfg_refused {s : State} {c : Nat} {f : CfgArg}
    (h : s.conf.nChips ≤ c ∨ f.inRange = false) :
    exec (.schedSetcfg c f) s = .next (refuse .badOperand s) := by
  change execSchedSetcfg c f s = _
  cases hchip : chipConf s.conf c with
  | none => simp [execSchedSetcfg, hchip]
  | some ch =>
    have hlt : c < s.conf.nChips := lt_nChips_of_chip hchip
    have hf : cfgFields f = none := cfgFields_of_not_inRange (h.resolve_left (Nat.not_le.mpr hlt))
    simp [execSchedSetcfg, hchip, hf]

/-- Settles O29: the store after the write, image by image. -/
theorem setcfgImage : Obligations.SetcfgImage := by
  rintro s c f ⟨hsized, -⟩
  refine ⟨fun hc hrange => ?_, exec_schedSetcfg_refused⟩
  obtain ⟨g, hg, hsame⟩ := exists_cfgFields_of_inRange hrange
  refine ⟨s.sched.setCfg c g, exec_schedSetcfg hc hg, rfl, rfl, setCfg_chips_length .., ?_, ?_, ?_⟩
  · exact fun d h => pair_setCfg s.sched c d h g
  · exact fun d hd => congrArg ChipRec.cfg (chip_setCfg_ne hd g)
  · rw [cfg_setCfg_same (hsized ▸ hc)]
    obtain ⟨hgpio, hrefon, hadcopt, hvuv, hvov, hdcc, hdcto⟩ := hsame
    exact ⟨hgpio, hrefon, hadcopt, hvuv, hvov, hdcc, hdcto⟩

/-! ### `SCHED.FAULTDATA` (43_scheduler R210) -/

theorem le_maxOf {l : List Nat} {x : Nat} (h : x ∈ l) : x ≤ maxOf l :=
  List.le_max_of_le h le_rfl

theorem maxOf_mem {l : List Nat} (h : l ≠ []) : maxOf l ∈ l :=
  List.maximum_mem (List.foldr_max_of_ne_nil h).symm

theorem maxOf_eq_zero_or_mem (l : List Nat) : maxOf l = 0 ∨ maxOf l ∈ l := by
  cases l with
  | nil => exact .inl rfl
  | cons x rest => exact .inr (maxOf_mem (List.cons_ne_nil x rest))

theorem invCnt_le_maxChip (u : SchedUnit) (c : Nat) (g : ReadGroup) :
    (u.pair c g).invCnt ≤ maxChip u c :=
  le_maxOf (List.mem_map_of_mem (ReadGroup.mem_all g))

theorem exists_invCnt_eq_maxChip (u : SchedUnit) (c : Nat) : ∃ g, (u.pair c g).invCnt = maxChip u c := by
  have hmem : maxChip u c ∈ ReadGroup.all.map fun g => (u.pair c g).invCnt :=
    maxOf_mem (by simp [ReadGroup.all])
  obtain ⟨g, -, hg⟩ := List.mem_map.mp hmem
  exact ⟨g, hg⟩

/-- Settles O36: the answer's list holds `maxChip` of each chip, and its maximum. -/
theorem faultdataMaxima : Obligations.FaultdataMaxima := by
  intro s
  refine ⟨maxOf ((List.range s.conf.nChips).map (maxChip s.sched)), _, rfl, by simp, ?_,
    fun x hx => le_maxOf hx, maxOf_eq_zero_or_mem _⟩
  intro c x hx
  obtain ⟨_, hget⟩ := List.getElem?_eq_some_iff.mp hx
  obtain rfl : maxChip s.sched c = x := by simpa using hget
  exact ⟨invCnt_le_maxChip s.sched c, exists_invCnt_eq_maxChip s.sched c⟩

/-! ### The chip that a line and an address select (70_reset R386) -/

theorem distinctChips_cons {ch : ChipConf} {rest : List ChipConf} :
    distinctChips (ch :: rest) = true ↔
      (∀ d ∈ rest, ¬ (d.csLine = ch.csLine ∧ d.addr = ch.addr)) ∧ distinctChips rest = true := by
  simp [distinctChips]

/-- Among distinct chips the first with the line and the address of a chip is that chip. -/
theorem find?_zipIdx_of_distinct {l : List ChipConf} (h : distinctChips l = true) {c : Nat} {ch : ChipConf}
    (hch : l[c]? = some ch) (n : Nat) :
    (l.zipIdx n).find? (fun p => p.1.csLine == ch.csLine && p.1.addr == ch.addr) = some (ch, n + c) := by
  induction l generalizing c n with
  | nil => simp at hch
  | cons d rest ih =>
    obtain ⟨hd, hrest⟩ := distinctChips_cons.mp h
    rw [List.zipIdx_cons]
    cases c with
    | zero =>
      obtain rfl : d = ch := by simpa using hch
      exact List.find?_cons_of_pos (by simp)
    | succ c =>
      have hrestch : rest[c]? = some ch := by simpa using hch
      have hother : ¬ (d.csLine = ch.csLine ∧ d.addr = ch.addr) := fun ⟨hline, haddr⟩ =>
        hd ch (List.mem_of_getElem? hrestch) ⟨hline.symm, haddr.symm⟩
      rw [List.find?_cons_of_neg (by simpa using hother), ih hrest hrestch (n + 1),
        Nat.add_assoc, Nat.add_comm 1]

theorem chipAt_of_distinct {k : Config} (h : distinctChips k.chips = true) {c : Nat} {ch : ChipConf}
    (hch : k.chips[c]? = some ch) : chipAt k ch.csLine ch.addr = some (ch, c) := by
  simpa [chipAt] using find?_zipIdx_of_distinct h hch 0

/-! ### The wire commands (30_encoding R106) -/

section
variable {s : State} {line : Nat} {addr : BitVec 4} {x : ChipConf × Nat}

theorem exec_wrcfg (hbuilt : s.pec.tableValid = true) (hx : chipAt s.conf line addr = some x) :
    exec (.wrcfg line addr) s = .next (finish .none
      { s with ports := writeConfig s.conf s.pec.table s.sched x.1 x.2 s.ports }) := by
  simp [exec, execWrcfg, requireTable_built hbuilt, hx]

theorem exec_adc (hbuilt : s.pec.tableValid = true) (hx : chipAt s.conf line addr = some x)
    (kind : AdcKind) (mode : BitVec 2) :
    exec (.adc line addr kind mode) s = .next (finish .none (startAdc x.2 x.1 kind mode s)) := by
  simp [exec, execAdc, requireTable_built hbuilt, hx]

theorem exec_readInstr_eq_conclude (g : ReadGroup) (line : Nat) (addr : BitVec 4) (s : State) :
    exec (readInstr g line addr) s = conclude s (readCommand g line addr s) := by
  cases g <;> rfl

theorem exec_readInstr (hbuilt : s.pec.tableValid = true) (hx : chipAt s.conf line addr = some x)
    (g : ReadGroup) :
    exec (readInstr g line addr) s = .next
      (finish (.packet (readReport s.conf s.pec.table g x.1 s.ports).1)
        { s with ports := (readReport s.conf s.pec.table g x.1 s.ports).2 }) := by
  simp [exec_readInstr_eq_conclude, readCommand, requireTable_built hbuilt, hx]

end

theorem skipsGroup_iff {ch : ChipConf} {g : ReadGroup} :
    skipsGroup ch g = true ↔ ch.kind.get g = ⟨.none, .none, .none⟩ := by
  rcases hk : ch.kind.get g with ⟨k0, k1, k2⟩
  simp [skipsGroup, hk, and_assoc]

/-- Settles O52: the report of the chip that the line and the address select, skipped or read in one window
from all lines high. -/
theorem readCommandsReadTheirGroup : Obligations.ReadCommandsReadTheirGroup := by
  intro s g c ch d r6 r7 hbuilt hhigh hdistinct hch hanswer ok cmd codes
  rw [exec_readInstr hbuilt (chipAt_of_distinct hdistinct hch)]
  by_cases hkinds : ch.kind.get g = ⟨.none, .none, .none⟩
  · rw [if_pos hkinds, readReport, if_pos (skipsGroup_iff.mpr hkinds)]
  · have hread : groupRead s.conf s.pec.table g ch s.ports = ((d.toList, ok), afterWindow ch.csLine
        (cmd ++ pecBytes s.pec.table cmd ++ List.replicate 8 s.conf.txFill) s.ports) := by
      rw [groupRead, readGroup_high hhigh _ _ _ _ hanswer, readFrame, cmd4_eq_commandBytes]
    rw [if_neg hkinds, readReport, if_neg (mt skipsGroup_iff.mp hkinds), hread]
    rfl

/-- Settles O53: on the chip that the line and the address select, the commands move what the two operations
of the transport move. -/
theorem wrcfgAndAdcCommands : Obligations.WrcfgAndAdcCommands := by
  intro s c ch hbuilt _ hdistinct hch
  have hx := chipAt_of_distinct hdistinct hch
  refine ⟨⟨?_, _, exec_wrcfg hbuilt hx⟩, fun kind mode => ⟨?_, _, _, exec_adc hbuilt hx kind mode⟩⟩
  · rw [exec_wrcfg hbuilt hx, exec_spiWrreg hbuilt hch (BitVec.isLt _), BitVec.ofNat_toNat,
      BitVec.setWidth_eq, writeConfig]
  · rw [exec_adc hbuilt hx, exec_spiAdcstart hbuilt hch (BitVec.isLt _), BitVec.ofNat_toNat,
      BitVec.setWidth_eq]

/-! ### One invocation of `SCHED.NEXT` (43_scheduler R202) -/

/-- The ports from which `SCHED.NEXT` reads the group: after the pre-step, where it runs. -/
def roundPorts (g : ReadGroup) (s : State) : Ports :=
  if needsPreStep g then preStep s.conf s.pec.table s.sched s.ports else s.ports

/-- The reads of `SCHED.NEXT` over all chips: the reports, the unit and the ports after. -/
def roundReads (g : ReadGroup) (s : State) : List ChipReport × SchedUnit × Ports :=
  readChips s.conf s.pec.table g (numberedChips s.conf) s.sched (roundPorts g s)

theorem exec_schedNext {s : State} {g : ReadGroup} (hbuilt : s.pec.tableValid = true)
    (hg : s.sched.grp = groupBits g) :
    exec .schedNext s = .next (finish (.scheduled g (roundReads g s).1)
      { s with sched := advance g (roundReads g s).2.1, ports := (roundReads g s).2.2 }) := by
  simp [exec, execSchedNext, requireTable_built hbuilt, hg, schedRound, roundReads, roundPorts]

theorem toNat_groupBits_nextGroup (g : ReadGroup) :
    (groupBits (nextGroup g)).toNat = ((groupBits g).toNat + 1) % 6 := by cases g <;> rfl

/-- Settles O31: the frame of the reads, and the advance after it. -/
theorem nextAdvances : Obligations.NextAdvances := by
  intro s g hbuilt hg
  obtain ⟨hreports, -, hcycle, hsize, hcfg, hpair⟩ :=
    readChips_frame s.conf s.pec.table g (numberedChips s.conf) s.sched (roundPorts g s)
  refine ⟨_, _, _, exec_schedNext hbuilt hg, hreports.trans (numberedChips_length s.conf), hsize, ?_, ?_,
    hcfg, fun c h hne => hpair c h (.inr hne)⟩
  · rw [SchedUnit_advance_grp, hg, toNat_groupBits_nextGroup]
  · change (if g = .auxB then (roundReads g s).2.1.cycle + 1 else (roundReads g s).2.1.cycle) = _
    rw [roundReads, hcycle]
    split_ifs <;> rfl

/-! ### The position over many invocations (43_scheduler R211) -/

theorem exists_groupBits_of_lt {b : BitVec 3} (h : b.toNat < 6) : ∃ g, b = groupBits g := by
  have hsome : groupOfBits b ≠ none := fun hnone => absurd (groupOfBits_eq_none.mp hnone) (by omega)
  obtain ⟨g, hg⟩ := Option.ne_none_iff_exists'.mp hsome
  exact ⟨g, groupOfBits_eq_some.mp hg⟩

/-- The position moves by one from a group to the next, also where `CYCLE` counts. -/
theorem position_nextGroup (g : ReadGroup) :
    6 * (if g = .auxB then 1 else 0) + (groupBits (nextGroup g)).toNat = (groupBits g).toNat + 1 := by
  cases g <;> rfl

/-- `n` invocations answer the `n` groups that follow one another from the present one. -/
theorem execAll_replicate_schedNext (n : Nat) {s : State} {g : ReadGroup}
    (hbuilt : s.pec.tableValid = true) (hg : s.sched.grp = groupBits g) :
    ∃ (t : State) (reports : List (List ChipReport)),
      execAll (List.replicate n .schedNext) s = some t ∧ reports.length = n ∧ t.sched.grp.toNat < 6 ∧
      6 * t.sched.cycle + t.sched.grp.toNat = 6 * s.sched.cycle + s.sched.grp.toNat + n ∧
      t.outcomes = s.outcomes ++
        List.zipWith (fun h r => .done (.scheduled h r)) (List.iterate nextGroup g n) reports := by
  induction n generalizing s g with
  | zero => exact ⟨s, [], rfl, rfl, hg ▸ groupBits_lt g, rfl, by simp⟩
  | succ n ih =>
    obtain ⟨r, u, p, hexec, -, -, hgrp, hcycle, -, -⟩ := nextAdvances s g hbuilt hg
    have hnext : u.grp = groupBits (nextGroup g) := by
      rw [← BitVec.toNat_inj, hgrp, hg, toNat_groupBits_nextGroup]
    obtain ⟨t, reports, hrun, hlen, hlegal, hpos, hout⟩ :=
      ih (s := finish (.scheduled g r) { s with sched := u, ports := p }) hbuilt hnext
    refine ⟨t, r :: reports, ?_, congrArg (· + 1) hlen, hlegal, ?_, ?_⟩
    · rw [List.replicate_succ, execAll, hexec]
      exact hrun
    · have hstep := position_nextGroup g
      rw [State_finish_sched, hcycle, hnext] at hpos
      rw [hg]
      omega
    · rw [hout, State_finish_outcomes, List.append_assoc]
      rfl

/-- Settles O35: the position moves by one an invocation; six from `CV_A` are back at `CV_A`. -/
theorem refreshTakesSixInvocations : Obligations.RefreshTakesSixInvocations := by
  intro s hbuilt hlegal
  constructor
  · intro n
    obtain ⟨g, hg⟩ := exists_groupBits_of_lt hlegal
    obtain ⟨t, -, hrun, -, hlt, hpos, -⟩ := execAll_replicate_schedNext n hbuilt hg
    exact ⟨t, hrun, hlt, hpos⟩
  · intro hcvA
    obtain ⟨t, reports, hrun, hlen, hlt, hpos, hout⟩ :=
      execAll_replicate_schedNext 6 (g := .cvA) hbuilt hcvA
    have hstart : s.sched.grp.toNat = 0 := by rw [hcvA]; rfl
    match reports, hlen with
    | [r0, r1, r2, r3, r4, r5], _ =>
      exact ⟨t, r0, r1, r2, r3, r4, r5, hrun, BitVec.eq_of_toNat_eq (by simp; omega), by omega, hout⟩

/-! ### One chip in the round (43_scheduler R204 to R207) -/

theorem map_snd_numberedChips_nodup (k : Config) : ((numberedChips k).map Prod.snd).Nodup := by
  rw [numberedChips, List.zipIdx_map_snd]
  exact List.nodup_range' 1

theorem getElem?_numberedChips {k : Config} {c : Nat} {ch : ChipConf} (h : k.chips[c]? = some ch) :
    (numberedChips k)[c]? = some (ch, c) := by
  simp [numberedChips, List.getElem?_zipIdx, h]

/-- In a round over chips with different ids a chip is read once: its report and its pair are those of a
`ReadChip` that finds its pair as the round did. -/
theorem readChips_getElem? (k : Config) (table : Vector Code 256) (g : ReadGroup)
    {l : List (ChipConf × Nat)} (hl : (l.map Prod.snd).Nodup) {i : Nat} {x : ChipConf × Nat}
    (hx : l[i]? = some x) (u : SchedUnit) (p : Ports) :
    ∃ (v : SchedUnit) (q : Ports), v.pair x.2 g = u.pair x.2 g ∧ v.chips.length = u.chips.length ∧
      (readChips k table g l u p).1[i]? = some (readChip k table g x.1 x.2 v q).1 ∧
      (readChips k table g l u p).2.1.pair x.2 g = (readChip k table g x.1 x.2 v q).2.1.pair x.2 g := by
  induction l generalizing i u p with
  | nil => simp at hx
  | cons y rest ih =>
    obtain ⟨hy, hrest⟩ := List.nodup_cons.mp hl
    rw [readChips_cons]
    cases i with
    | zero =>
      obtain rfl : y = x := by simpa using hx
      obtain ⟨-, -, -, -, -, hpair⟩ := readChips_frame k table g rest
        (readChip k table g y.1 y.2 u p).2.1 (readChip k table g y.1 y.2 u p).2.2
      exact ⟨u, p, rfl, rfl, rfl, hpair y.2 g (.inl fun z hz hid => hy (hid ▸ List.mem_map_of_mem hz))⟩
    | succ i =>
      have hrestx : rest[i]? = some x := by simpa using hx
      have hid : x.2 ≠ y.2 := fun hid => hy (hid ▸ List.mem_map_of_mem (List.mem_of_getElem? hrestx))
      obtain ⟨-, -, hsize, -, hpair⟩ := readChip_frame k table g y.1 y.2 u p
      obtain ⟨v, q, hv, hvsize, hreport, hafter⟩ := ih hrest hrestx (readChip k table g y.1 y.2 u p).2.1
        (readChip k table g y.1 y.2 u p).2.2
      exact ⟨v, q, hv.trans (hpair x.2 g (.inl hid)), hvsize.trans hsize, hreport, hafter⟩

/-- What `SCHED.NEXT` answers for chip `c` and leaves in its pair is one `ReadChip`. -/
theorem exec_schedNext_chip {s : State} {g : ReadGroup} {c : Nat} {ch : ChipConf}
    (hbuilt : s.pec.tableValid = true) (hg : s.sched.grp = groupBits g) (hch : s.conf.chips[c]? = some ch) :
    ∃ (reports : List ChipReport) (t : State) (v : SchedUnit) (q : Ports),
      exec .schedNext s = .next (finish (.scheduled g reports) t) ∧
      v.pair c g = s.sched.pair c g ∧ v.chips.length = s.sched.chips.length ∧
      reports[c]? = some (readChip s.conf s.pec.table g ch c v q).1 ∧
      t.sched.pair c g = (readChip s.conf s.pec.table g ch c v q).2.1.pair c g := by
  obtain ⟨v, q, hv, hsize, hreport, hpair⟩ := readChips_getElem? s.conf s.pec.table g
    (map_snd_numberedChips_nodup s.conf) (getElem?_numberedChips hch) s.sched (roundPorts g s)
  exact ⟨_, _, v, q, exec_schedNext hbuilt hg, hv, hsize, hreport, hpair⟩

/-- Settles O32: the `ReadChip` of a group without data is skipped. -/
theorem nextSkipsEmptyGroups : Obligations.NextSkipsEmptyGroups := by
  intro s g c ch hbuilt hg hch hkinds
  obtain ⟨reports, t, v, q, hexec, hv, -, hreport, hpair⟩ := exec_schedNext_chip hbuilt hg hch
  rw [readChip, if_pos (skipsGroup_iff.mpr hkinds)] at hreport hpair
  exact ⟨reports, t, hexec, hreport, hpair.trans hv⟩

theorem commitSlot_eq (k : Kind) (old : Option Code) (code : Code) :
    commitSlot k old code = if k ≠ .none then some code else old := by
  rw [commitSlot, ite_not]

/-- The pair after a packet, element by element (43_scheduler R206, R207). -/
structure PacketTaken (kinds : Triple Kind) (codes : Triple Code) (ok : Bool) (old new : Pair) : Prop where
  valid : new.valid = ok
  invCnt : new.invCnt = if ok then 0 else old.invCnt + 1
  slot0 : new.sample.s0 = if ok = true ∧ kinds.s0 ≠ .none then some codes.s0 else old.sample.s0
  slot1 : new.sample.s1 = if ok = true ∧ kinds.s1 ≠ .none then some codes.s1 else old.sample.s1
  slot2 : new.sample.s2 = if ok = true ∧ kinds.s2 ≠ .none then some codes.s2 else old.sample.s2

theorem packetTaken_pairAfter (kinds : Triple Kind) (d : Six) (ok : Bool) (p : Pair) :
    PacketTaken kinds (groupCodes d) ok p (pairAfter kinds d.toList ok p) := by
  rw [pairAfter_toList]
  cases ok with
  | true => constructor <;> simp [commitCodes, updateValidity, commitSlot_eq]
  | false => constructor <;> simp [updateValidity]

/-- Settles O33: the `ReadChip` of a group with data is one read, and its pair takes the packet. -/
theorem nextUpdatesPairs : Obligations.NextUpdatesPairs := by
  rintro s g c ch hbuilt hg ⟨hsized, -⟩ hch hkinds
  obtain ⟨reports, t, v, q, hexec, hv, hvsize, hreport, hpair⟩ := exec_schedNext_chip hbuilt hg hch
  have hlt : c < v.chips.length := by
    rw [hvsize, hsized]
    exact lt_nChips_of_chip hch
  rcases readChip_cases s.conf s.pec.table g ch c v q with ⟨hskip, -⟩ | ⟨-, d, r6, r7, -, hread⟩
  · exact absurd (skipsGroup_iff.mp hskip) hkinds
  · rw [hread] at hreport hpair
    rw [pair_setPair_same hlt, hv] at hpair
    obtain ⟨hvalid, hinvCnt, hslot0, hslot1, hslot2⟩ := packetTaken_pairAfter (ch.kind.get g) d
      (pecMatches s.pec.table d.toList r6 r7) (s.sched.pair c g)
    rw [← hpair] at hvalid hinvCnt hslot0 hslot1 hslot2
    exact ⟨reports, t, _, _, hexec, hreport, hvalid, hinvCnt, hslot0, hslot1, hslot2⟩

/-! ### The lines in use (43_scheduler R203) -/

theorem mem_insertLine {line x : Nat} {l : List Nat} : x ∈ insertLine line l ↔ x = line ∨ x ∈ l := by
  induction l with
  | nil => simp [insertLine]
  | cons y rest ih =>
    rw [insertLine]
    split_ifs with hlt heq
    · rw [List.mem_cons]
    · simp [heq]
    · rw [List.mem_cons, ih, List.mem_cons]
      tauto

theorem insertLine_pairwise {l : List Nat} (h : l.Pairwise (· < ·)) (line : Nat) :
    (insertLine line l).Pairwise (· < ·) := by
  induction l with
  | nil => simp [insertLine]
  | cons y rest ih =>
    obtain ⟨hy, hrest⟩ := List.pairwise_cons.mp h
    rw [insertLine]
    split_ifs with hlt heq
    · exact List.pairwise_cons.mpr ⟨List.forall_mem_cons.mpr ⟨hlt, fun z hz => hlt.trans (hy z hz)⟩, h⟩
    · exact h
    · refine List.pairwise_cons.mpr ⟨fun z hz => ?_, ih hrest⟩
      rcases mem_insertLine.mp hz with rfl | hz
      · omega
      · exact hy z hz

theorem usedLines_pairwise (k : Config) : (usedLines k).Pairwise (· < ·) := by
  rw [usedLines]
  induction k.chips with
  | nil => exact .nil
  | cons ch rest ih => exact insertLine_pairwise ih ch.csLine

theorem mem_usedLines {k : Config} {line : Nat} :
    line ∈ usedLines k ↔ ∃ ch ∈ k.chips, ch.csLine = line := by
  rw [usedLines]
  induction k.chips with
  | nil => simp
  | cons ch rest ih => rw [List.foldr_cons, mem_insertLine, ih, List.exists_mem_cons_iff, eq_comm]

/-! ### `SCHED.NEXT` as a sequence of wire commands (43_scheduler R202 to R204) -/

theorem execAll_append (l m : List Instr) (s : State) :
    execAll (l ++ m) s = (execAll l s).bind (execAll m) := by
  induction l generalizing s with
  | nil => rfl
  | cons i rest ih =>
    rw [List.cons_append, execAll, execAll]
    cases exec i s with
    | next t => exact ih t
    | _ => rfl

/-- `s` with other ports and another record of outcomes: all that the commands of the bus change. -/
def onBus (s : State) (p : Ports) (outcomes : List OpOutcome) : State :=
  { s with ports := p, outcomes := outcomes }

/-- Commands that write the ports only, one for each element of a list, executed in order. -/
theorem execAll_map_onBus {α : Type} {instr : α → Instr} {f : Ports → α → Ports} {s : State} {l : List α}
    (h : ∀ x ∈ l, ∀ p os, exec (instr x) (onBus s p os) = .next (finish .none (onBus s (f p x) os)))
    (p : Ports) (os : List OpOutcome) :
    execAll (l.map instr) (onBus s p os) =
      some (onBus s (l.foldl f p) (os ++ List.replicate l.length (.done .none))) := by
  induction l generalizing p os with
  | nil => simp [execAll]
  | cons x rest ih =>
    obtain ⟨hx, hrest⟩ := List.forall_mem_cons.mp h
    rw [List.map_cons, execAll, hx]
    refine (ih hrest (f p x) (os ++ [.done .none])).trans ?_
    rw [List.append_assoc]
    rfl

section
variable {s : State}

theorem execAll_wakeups (p : Ports) (os : List OpOutcome) :
    execAll ((usedLines s.conf).map .spiWakeup) (onBus s p os) =
      some (onBus s ((usedLines s.conf).foldl (fun q line => wakeLine s.conf.txFill line q) p)
        (os ++ List.replicate (usedLines s.conf).length (.done .none))) := by
  refine execAll_map_onBus (fun line hline p os => ?_) p os
  exact (exec_spiWakeup line (onBus s p os)).trans
    (congrArg _ (if_pos ((usesLine_iff s.conf line).mpr (mem_usedLines.mp hline))))

theorem chipAt_of_mem_numberedChips {k : Config} (hdistinct : distinctChips k.chips = true)
    {x : ChipConf × Nat} (hx : x ∈ numberedChips k) : chipAt k x.1.csLine x.1.addr = some x :=
  chipAt_of_distinct hdistinct (mem_numberedChips hx)

/-- A command for each chip is a command for each numbered chip. -/
theorem map_chips_eq (k : Config) (f : ChipConf → Instr) :
    k.chips.map f = (numberedChips k).map fun x => f x.1 := by
  conv_lhs => rw [← List.zipIdx_map_fst 0 k.chips, List.map_map]
  rfl

theorem execAll_wrcfgs (hbuilt : s.pec.tableValid = true) (hdistinct : distinctChips s.conf.chips = true)
    (p : Ports) (os : List OpOutcome) :
    execAll (s.conf.chips.map fun ch => .wrcfg ch.csLine ch.addr) (onBus s p os) =
      some (onBus s
        ((numberedChips s.conf).foldl (fun q x => writeConfig s.conf s.pec.table s.sched x.1 x.2 q) p)
        (os ++ List.replicate s.conf.chips.length (.done .none))) := by
  have hlen : s.conf.chips.length = (numberedChips s.conf).length := (numberedChips_length s.conf).symm
  rw [map_chips_eq, hlen]
  refine execAll_map_onBus (fun x hx p os => ?_) p os
  exact exec_wrcfg (s := onBus s p os) hbuilt (chipAt_of_mem_numberedChips hdistinct hx)

/-- The commands of the pre-step, where it runs (43_scheduler R203). -/
def preCommands (g : ReadGroup) (k : Config) : List Instr :=
  if g = .cvA ∨ g = .auxA then
    (usedLines k).map Instr.spiWakeup ++ k.chips.map (fun ch => .wrcfg ch.csLine ch.addr) else []

theorem needsPreStep_iff (g : ReadGroup) : needsPreStep g = true ↔ g = .cvA ∨ g = .auxA := by
  simp [needsPreStep]

theorem execAll_preCommands (hbuilt : s.pec.tableValid = true)
    (hdistinct : distinctChips s.conf.chips = true) (g : ReadGroup) :
    execAll (preCommands g s.conf) s = some (onBus s (roundPorts g s)
      (s.outcomes ++ List.replicate (preCommands g s.conf).length (.done .none))) := by
  change execAll _ (onBus s s.ports s.outcomes) = _
  rw [preCommands, roundPorts]
  by_cases hg : g = .cvA ∨ g = .auxA
  · rw [if_pos hg, if_pos ((needsPreStep_iff g).mpr hg), execAll_append, execAll_wakeups, Option.bind_some,
      execAll_wrcfgs hbuilt hdistinct, List.append_assoc, List.replicate_append_replicate,
      List.length_append, List.length_map, List.length_map]
    rfl
  · rw [if_neg hg, if_neg (mt (needsPreStep_iff g).mp hg)]
    simp [execAll]

/-- The read commands move the bytes of the round and answer its packets, whatever the round stores. -/
theorem execAll_reads (hbuilt : s.pec.tableValid = true) (g : ReadGroup) {l : List (ChipConf × Nat)}
    (hl : ∀ x ∈ l, chipAt s.conf x.1.csLine x.1.addr = some x) (u : SchedUnit) (p : Ports)
    (os : List OpOutcome) :
    let q := readChips s.conf s.pec.table g l u p
    execAll (l.map fun x => readInstr g x.1.csLine x.1.addr) (onBus s p os) =
      some (onBus s q.2.2 (os ++ q.1.map fun r => .done (.packet r))) := by
  induction l generalizing u p os with
  | nil => simp [execAll, readChips]
  | cons x rest ih =>
    obtain ⟨hx, hrest⟩ := List.forall_mem_cons.mp hl
    have hexec := exec_readInstr (s := onBus s p os) hbuilt hx g
    rw [readReport_eq _ _ _ _ x.2 u] at hexec
    rw [List.map_cons, execAll, hexec, readChips_cons]
    refine (ih hrest (readChip s.conf s.pec.table g x.1 x.2 u p).2.1
      (readChip s.conf s.pec.table g x.1 x.2 u p).2.2
      (os ++ [.done (.packet (readChip s.conf s.pec.table g x.1 x.2 u p).1)])).trans ?_
    rw [List.append_assoc]
    rfl

/-- The commands of the pre-step lead to the ports from which the round reads; the read commands follow it. -/
theorem execAll_roundCommands (hbuilt : s.pec.tableValid = true)
    (hdistinct : distinctChips s.conf.chips = true) (g : ReadGroup) :
    execAll (preCommands g s.conf ++ s.conf.chips.map fun ch => readInstr g ch.csLine ch.addr) s =
      some (onBus s (roundReads g s).2.2
        (s.outcomes ++ List.replicate (preCommands g s.conf).length (.done .none) ++
          (roundReads g s).1.map fun r => .done (.packet r))) := by
  rw [execAll_append, execAll_preCommands hbuilt hdistinct, Option.bind_some, map_chips_eq]
  exact execAll_reads hbuilt g (fun _ => chipAt_of_mem_numberedChips hdistinct) s.sched (roundPorts g s) _

end

/-- Settles O30: the sequence is that of the pre-step's commands and the read commands, which the round
follows. -/
theorem nextIsItsWireCommands : Obligations.NextIsItsWireCommands := by
  intro s t g hbuilt hg hdistinct hexec
  obtain rfl := Host.Outcome.next.inj ((exec_schedNext hbuilt hg).symm.trans hexec)
  have hrun := execAll_roundCommands hbuilt hdistinct g
  exact ⟨usedLines s.conf, preCommands g s.conf, _, (roundReads g s).1, usedLines_pairwise s.conf,
    fun _ => mem_usedLines, rfl, hrun, rfl, rfl, rfl⟩

end Sys2Proof.Proofs
end

section
/-! PROOFS. The fault comparator (44_fault_comparator): what refuses a controller operation, the timers and
fault flags of a tick, and the hold-off of `BMS_OK`. -/

namespace Sys2Proof.Proofs

open Sys2Proof Sys2Proof.Machine Sys2Proof.Safety

/-! ### Preconditions -/

/-- A precondition in front of an answer is tested first: it refuses, or it leaves no trace. -/
theorem conclude_require (s : State) (cond : Bool) (why : RefusalReason) (f : Unit → Answer) :
    conclude s (Machine.require cond why >>= f) =
      if cond then conclude s (f ()) else .next (refuse why s) := by
  cases cond with
  | true => rfl
  | false => rfl

/-! ### `CTL.INIT` and `CTL.SETCHG` (44_fault_comparator R232, R233) -/

theorem exec_ctlInit (now : Nat) (cfgOk : Bool) (s : State) :
    exec (.ctlInit now cfgOk) s = if !s.ctl.ready then
      .next (finish .none { s with ctl := { s.ctl with
        lastOk := PerClass.const now, lastEval := now, cfgOk := cfgOk, ready := true } })
      else .next (refuse .alreadyInitialised s) :=
  conclude_require s _ _ _

/-- Settles O37: the one precondition of `CTL.INIT`. -/
theorem initStartsTimers : Obligations.InitStartsTimers := by
  intro s now cfgOk
  refine ⟨fun hfresh => ?_, fun hready => ?_⟩
  · rw [exec_ctlInit, hfresh]
    rfl
  · rw [exec_ctlInit, hready]
    rfl

/-- Settles O38: `CTL.SETCHG` has no precondition, and its one write is to `CHG_EN`. -/
theorem setchgWritesFlag : Obligations.SetchgWritesFlag :=
  fun s en => conclude_ok s (s.setChgEn en) .none

/-! ### When `CTL.EVALUATE` is done (44_fault_comparator R234) -/

theorem divisorsOk_iff (conf : CtlConf) :
    divisorsOk conf = true ↔ ¬ (conf.irCellCount = 0 ∨ conf.capacityAh ≤ 0) := by
  simp [divisorsOk, Nat.pos_iff_ne_zero]

/-- The preconditions of `CTL.EVALUATE` in their order, and the tick behind them. -/
theorem exec_ctlEvaluate (snap : Snapshot) (now : Nat) (cur : Rat) (s : State) :
    exec (.ctlEvaluate snap now cur) s =
      if s.ctl.ready then
        if s.ctl.lastEval ≤ now then
          if s.ctl.cfgOk = false ∨ ¬ (s.conf.ctl.irCellCount = 0 ∨ s.conf.ctl.capacityAh ≤ 0) then
            if snap.cellV.length = s.conf.nCellsTotal then
              .next (finish (.status (statusOf (evaluateTick s.conf.ctl snap now cur s.ctl)))
                { s with ctl := evaluateTick s.conf.ctl snap now cur s.ctl })
            else .next (refuse .badOperand s)
          else .next (refuse .parameterExcluded s)
        else .next (refuse .timeWentBackwards s)
      else .next (refuse .notInitialised s) := by
  change execCtlEvaluate snap now cur s = _
  simp only [execCtlEvaluate, conclude_require, ← divisorsOk_iff, Bool.or_eq_true, Bool.not_eq_true',
    decide_eq_true_eq, beq_iff_eq, except_pure, conclude_ok]

/-! ### The second debounce layer (44_fault_comparator R246) -/

theorem updateBmsOk_of_fault {u : CtlUnit} (h : u.hasFault = true) (conf : CtlConf) (now : Nat) :
    updateBmsOk conf now u = { u with bmsOk := false, lastNotOk := now, notOkSeen := true } :=
  if_pos h

theorem updateBmsOk_of_no_fault {u : CtlUnit} (h : u.hasFault = false) (conf : CtlConf) (now : Nat) :
    updateBmsOk conf now u =
      { u with bmsOk := !(u.notOkSeen && decide (now - u.lastNotOk < conf.bmsOkHoldoffMs)) } := by
  rw [updateBmsOk, h]
  cases u.notOkSeen && decide (now - u.lastNotOk < conf.bmsOkHoldoffMs) with
  | true => rfl
  | false => rfl

/-! ### The tick, field by field -/

section
variable (conf : CtlConf) (snap : Snapshot) (now : Nat) (cur : Rat) (u : CtlUnit)

theorem evaluateTick_lastOk_get (k : FaultClass) :
    (evaluateTick conf snap now cur u).lastOk.get k =
      if (violations conf u.chgEn snap cur).get k then u.lastOk.get k else now := by
  rw [evaluateTick_eq]
  exact PerClass.get_ofFn _ k

theorem evaluateTick_fault_get (k : FaultClass) :
    (evaluateTick conf snap now cur u).fault.get k = true ↔
      now - (evaluateTick conf snap now cur u).lastOk.get k > conf.maxDurMs.get k := by
  rw [evaluateTick_eq]
  exact (Eq.congr_left (PerClass.get_ofFn _ k)).trans decide_eq_true_iff

theorem evaluateTick_hasFault :
    (evaluateTick conf snap now cur u).hasFault = true ↔
      (∃ k, (evaluateTick conf snap now cur u).fault.get k = true) ∨ u.cfgOk = false := by
  rw [evaluateTick_eq]
  exact hasFaultOf_eq_true _ u.cfgOk

/-- What the tick takes over from the second debounce layer. -/
theorem evaluateTick_bmsOk :
    let v := updateFaults conf now (violations conf u.chgEn snap cur) u
    let t := evaluateTick conf snap now cur u
    t.hasFault = v.hasFault ∧ t.bmsOk = (updateBmsOk conf now v).bmsOk ∧
      t.lastNotOk = (updateBmsOk conf now v).lastNotOk ∧
      t.notOkSeen = (updateBmsOk conf now v).notOkSeen := by
  intro v t
  have ht : t = evaluateTick conf snap now cur u := rfl
  rw [ht, evaluateTick_eq]
  exact ⟨rfl, rfl, rfl, rfl⟩

variable {conf snap now cur u}

/-- A tick that finds a fault drops `BMS_OK` at once and notes the time. -/
theorem evaluateTick_of_fault (h : (evaluateTick conf snap now cur u).hasFault = true) :
    (evaluateTick conf snap now cur u).bmsOk = false ∧
      (evaluateTick conf snap now cur u).lastNotOk = now ∧
      (evaluateTick conf snap now cur u).notOkSeen = true := by
  obtain ⟨hfault, hbms, hlast, hseen⟩ := evaluateTick_bmsOk conf snap now cur u
  rw [hbms, hlast, hseen, updateBmsOk_of_fault (hfault.symm.trans h)]
  exact ⟨rfl, rfl, rfl⟩

/-- A tick that finds none keeps the last not-ok time, and `BMS_OK` waits for the hold-off since then. -/
theorem evaluateTick_of_no_fault (h : (evaluateTick conf snap now cur u).hasFault = false) :
    (evaluateTick conf snap now cur u).lastNotOk = u.lastNotOk ∧
      (evaluateTick conf snap now cur u).notOkSeen = u.notOkSeen ∧
      ((evaluateTick conf snap now cur u).bmsOk = false ↔
        u.notOkSeen = true ∧ now - u.lastNotOk < conf.bmsOkHoldoffMs) := by
  obtain ⟨hfault, hbms, hlast, hseen⟩ := evaluateTick_bmsOk conf snap now cur u
  rw [hbms, hlast, hseen, updateBmsOk_of_no_fault (hfault.symm.trans h)]
  refine ⟨rfl, rfl, ?_⟩
  change (!(u.notOkSeen && decide (now - u.lastNotOk < conf.bmsOkHoldoffMs))) = false ↔ _
  rw [Bool.not_eq_false', Bool.and_eq_true, decide_eq_true_iff]

end

/-! ### The obligations about the tick -/

/-- Settles O39: the fields of the tick, with the tests of R236 to R242 as `violated`. -/
theorem evaluateFaults : Obligations.EvaluateFaults := by
  intro s snap now cur h
  have hlast := evaluateTick_lastOk_get s.conf.ctl snap now cur s.ctl
  refine ⟨evaluateTick s.conf.ctl snap now cur s.ctl, execCtlEvaluate_of_evaluable cur h,
    fun k hk => ?_, fun k hk => ?_, evaluateTick_fault_get _ _ _ _ _, evaluateTick_hasFault _ _ _ _ _, ?_⟩
  · rw [hlast, if_pos ((violations_get k ..).mpr hk)]
  · rw [hlast, if_neg (mt (violations_get k ..).mp hk)]
  · rw [evaluateTick_eq]
    exact ⟨rfl, rfl, rfl, rfl⟩

/-- Settles O40: the two cases of the second debounce layer. -/
theorem evaluateBmsOk : Obligations.EvaluateBmsOk := fun _ _ _ cur h =>
  ⟨_, _, execCtlEvaluate_of_evaluable cur h, evaluateTick_of_fault, evaluateTick_of_no_fault⟩

/-- Settles O10: the first precondition that fails gives the reason; behind all four, the standing
configuration fault alone raises `HAS_FAULT` and so drops `BMS_OK`. -/
theorem evaluateRefusals : Obligations.EvaluateRefusals := by
  intro s snap now cur excluded
  refine ⟨fun hunready => ?_, fun hready hearly => ?_, fun hready htime hok hexcluded => ?_,
    fun hready htime hallowed hcells => ?_, fun hready htime hallowed hcells => ?_⟩
  · rw [exec_ctlEvaluate, if_neg (Bool.eq_false_iff.mp hunready)]
  · rw [exec_ctlEvaluate, if_pos hready, if_neg (Nat.not_le.mpr hearly)]
  · have hnot : ¬ (s.ctl.cfgOk = false ∨ ¬ excluded) := by
      rw [hok]
      rintro (hfalse | hfree)
      · cases hfalse
      · exact hfree hexcluded
    rw [exec_ctlEvaluate, if_pos hready, if_pos htime, if_neg hnot]
  · rw [exec_ctlEvaluate, if_pos hready, if_pos htime, if_pos hallowed, if_neg hcells]
  · have hdone := exec_ctlEvaluate snap now cur s
    rw [if_pos hready, if_pos htime, if_pos hallowed, if_pos hcells] at hdone
    refine ⟨_, _, hdone, fun hstanding => ?_⟩
    have hfault : (evaluateTick s.conf.ctl snap now cur s.ctl).hasFault = true :=
      (evaluateTick_hasFault ..).mpr (.inr hstanding)
    exact ⟨hfault, (evaluateTick_of_fault hfault).1⟩

end Sys2Proof.Proofs
end

section
/-! PROOFS. Balance and `SOC` (45_balance_soc): the balance part and the coulomb counter of a tick, and the
controller's invariants under every step. -/

namespace Sys2Proof.Proofs

open Sys2Proof Sys2Proof.Machine Sys2Proof.Safety

/-! ### The temperature gate and the flags (45_balance_soc R270, R271) -/

/-- An open gate closes strictly above the limit. -/
theorem balTempAfter_open (conf : CtlConf) (t : Rat) :
    balTempAfter conf t true = false ↔ conf.balTempLimitC < t := by
  rw [balTempAfter, if_pos rfl, Bool.not_eq_false', decide_eq_true_iff]

/-- A closed gate opens strictly below the enable temperature. -/
theorem balTempAfter_closed (conf : CtlConf) (t : Rat) :
    balTempAfter conf t false = true ↔ t < conf.balTempEnableC := by
  rw [balTempAfter, if_neg Bool.false_ne_true, decide_eq_true_iff]

theorem balFlag_eq_true (conf : CtlConf) (gate : Bool) (m v : Rat) :
    balFlag conf gate m v = true ↔ gate = true ∧ conf.balDiffV < v - m ∧ conf.balFloorV < v := by
  simp only [balFlag, Bool.and_eq_true, decide_eq_true_iff, and_assoc]

/-! ### The coulomb counter (45_balance_soc R273) -/

theorem socSignum_eq (sign : SocSign) : socSignum sign = if sign = .plus then 1 else -1 := by
  cases sign with
  | plus => rfl
  | minus => rfl

/-- `SOC` after any time is clamped, whatever the charge and the capacity. -/
theorem socAfter_mem_Icc (conf : CtlConf) (dtMs : Nat) (cur soc : Rat) :
    socAfter conf dtMs cur soc ∈ Set.Icc 0 1 := by
  rw [socAfter, clamp01_eq]
  exact ⟨le_min zero_le_one (le_max_left _ _), min_le_left _ _⟩

/-! ### The tick, field by field -/

section
variable (conf : CtlConf) (snap : Snapshot) (now : Nat) (cur : Rat) (u : CtlUnit)

theorem evaluateTick_balTempOk :
    (evaluateTick conf snap now cur u).balTempOk = balTempAfter conf snap.maxBoardTemp u.balTempOk := by
  rw [evaluateTick_eq]

theorem evaluateTick_bal :
    (evaluateTick conf snap now cur u).bal = snap.cellV.map (balFlag conf
      (u.chgEn && (evaluateTick conf snap now cur u).balTempOk) snap.minCellV) := by
  rw [evaluateTick_eq]

theorem evaluateTick_soc :
    (evaluateTick conf snap now cur u).soc = socAfter conf (now - u.lastEval) cur u.soc := by
  rw [evaluateTick_eq]

theorem evaluateTick_lastEval : (evaluateTick conf snap now cur u).lastEval = now := by
  rw [evaluateTick_eq]

theorem evaluateTick_ready : (evaluateTick conf snap now cur u).ready = u.ready := by
  rw [evaluateTick_eq]
  rfl

/-- The flag of a cell, with the gate of this tick. -/
theorem evaluateTick_bal_getElem? {i : Nat} {v : Rat} (hv : snap.cellV[i]? = some v) :
    ∃ b : Bool, (evaluateTick conf snap now cur u).bal[i]? = some b ∧
      (b = true ↔ u.chgEn = true ∧ (evaluateTick conf snap now cur u).balTempOk = true ∧
        conf.balDiffV < v - snap.minCellV ∧ conf.balFloorV < v) := by
  refine ⟨balFlag conf (u.chgEn && (evaluateTick conf snap now cur u).balTempOk) snap.minCellV v, ?_, ?_⟩
  · rw [evaluateTick_bal, List.getElem?_map, hv]
    rfl
  · rw [balFlag_eq_true, Bool.and_eq_true, and_assoc]

end

/-! ### The obligations about the tick -/

/-- Settles O41: the two positions of the gate, and the flag of each cell of the snapshot. -/
theorem evaluateBalance : Obligations.EvaluateBalance := by
  intro s snap now cur h
  have hgate := evaluateTick_balTempOk s.conf.ctl snap now cur s.ctl
  refine ⟨_, _, execCtlEvaluate_of_evaluable cur h, fun hopen => ?_, fun hclosed => ?_, ?_,
    fun i v hv => evaluateTick_bal_getElem? _ _ _ _ _ hv⟩
  · rw [hgate, hopen]
    exact balTempAfter_open _ _
  · rw [hgate, hclosed]
    exact balTempAfter_closed _ _
  · obtain ⟨-, -, -, hcells⟩ := h
    rw [evaluateTick_bal, List.length_map, hcells]

/-- Settles O42: `SOC` of the tick, with the clamp, the sign and the quotient written out. -/
theorem evaluateSoc : Obligations.EvaluateSoc := by
  intro s snap now cur h
  refine ⟨_, _, execCtlEvaluate_of_evaluable cur h, ?_⟩
  rw [evaluateTick_soc, socAfter, clamp01_eq, quotient, socSignum_eq]

/-! ### A sound controller (45_balance_soc R274; 44_fault_comparator R246, R249) -/

/-- What the controller's invariants say of U5, together. -/
structure CtlSound (u : CtlUnit) : Prop where
  soc : u.soc ∈ Set.Icc 0 1
  fault : u.hasFault = true → u.bmsOk = false
  holdoff : u.bmsOk = false → u.notOkSeen = true
  lastOk : ∀ k, u.lastOk.get k ≤ u.lastEval
  started : u.notOkSeen = true → u.ready = true
  lastNotOk : u.notOkSeen = true → u.lastNotOk ≤ u.lastEval

theorem ctlSound_iff (s : State) :
    CtlSound s.ctl ↔ socInRange s ∧ bmsOkSound s ∧ timesSound s := by
  constructor
  · rintro ⟨hsoc, hfault, hholdoff, hlastOk, hstarted, hlastNotOk⟩
    exact ⟨hsoc, ⟨hfault, hholdoff⟩, fun k _ => hlastOk k, fun h => ⟨hstarted h, hlastNotOk h⟩⟩
  · rintro ⟨hsoc, ⟨hfault, hholdoff⟩, hlastOk, hnotOk⟩
    exact ⟨hsoc, hfault, hholdoff, fun k => hlastOk k (FaultClass.mem_all k),
      fun h => (hnotOk h).1, fun h => (hnotOk h).2⟩

/-- `CHG_EN` is in none of the invariants. -/
theorem CtlSound.setChgEn {u : CtlUnit} (h : CtlSound u) (en : Bool) : CtlSound { u with chgEn := en } :=
  ⟨h.soc, h.fault, h.holdoff, h.lastOk, h.started, h.lastNotOk⟩

/-- `CTL.INIT` finds no not-ok tick behind it, and starts every timer at the time of its last tick. -/
theorem CtlSound.init {u : CtlUnit} (h : CtlSound u) (hfresh : u.ready = false) (now : Nat) (ok : Bool) :
    CtlSound { u with lastOk := PerClass.const now, lastEval := now, cfgOk := ok, ready := true } where
  soc := h.soc
  fault := h.fault
  holdoff := h.holdoff
  lastOk k := (PerClass.get_const now k).le
  started _ := rfl
  lastNotOk hseen := absurd (h.started hseen) (Bool.eq_false_iff.mp hfresh)

/-- A timer holds the time of this tick or what it held before. -/
theorem evaluateTick_lastOk_le (conf : CtlConf) (snap : Snapshot) {now : Nat} (cur : Rat) {u : CtlUnit}
    (htime : u.lastEval ≤ now) {k : FaultClass} (hk : u.lastOk.get k ≤ u.lastEval) :
    (evaluateTick conf snap now cur u).lastOk.get k ≤ now := by
  rw [evaluateTick_lastOk_get]
  split_ifs
  · exact hk.trans htime
  · exact le_rfl

/-- A tick whose time is not before the last one: with a fault it is itself the last not-ok tick, without
one that tick stays where it was. -/
theorem CtlSound.evaluateTick {u : CtlUnit} (h : CtlSound u) (hready : u.ready = true) {now : Nat}
    (htime : u.lastEval ≤ now) (conf : CtlConf) (snap : Snapshot) (cur : Rat) :
    CtlSound (Machine.evaluateTick conf snap now cur u) where
  soc := by
    rw [evaluateTick_soc]
    exact socAfter_mem_Icc _ _ _ _
  fault hfault := (evaluateTick_of_fault hfault).1
  holdoff hbms := by
    cases hfault : (Machine.evaluateTick conf snap now cur u).hasFault with
    | true =>
      obtain ⟨-, -, hseen⟩ := evaluateTick_of_fault hfault
      exact hseen
    | false =>
      obtain ⟨-, hseen, hwait⟩ := evaluateTick_of_no_fault hfault
      exact hseen.trans (hwait.mp hbms).1
  lastOk k := by
    rw [evaluateTick_lastEval]
    exact evaluateTick_lastOk_le conf snap cur htime (h.lastOk k)
  started _ := (evaluateTick_ready ..).trans hready
  lastNotOk hseen := by
    rw [evaluateTick_lastEval]
    cases hfault : (Machine.evaluateTick conf snap now cur u).hasFault with
    | true =>
      obtain ⟨-, hlast, -⟩ := evaluateTick_of_fault hfault
      exact hlast.le
    | false =>
      obtain ⟨hlast, hkept, -⟩ := evaluateTick_of_no_fault hfault
      exact hlast.le.trans ((h.lastNotOk (hkept.symm.trans hseen)).trans htime)

/-! ### Every operation and every step -/

/-- The three operations of U5 leave the controller sound. -/
theorem exec_u5_leaves_ctlSound {i : Instr} (hu : unitOf i = .u5) {s : State} (h : CtlSound s.ctl) :
    ∃ a, exec i s = conclude s a ∧ Leaves (fun t => CtlSound t.ctl) a := by
  cases i with
  | ctlInit now cfgOk =>
    exact ⟨_, rfl, .require fun hfresh => .done _ (h.init ((Bool.not_eq_true' _).mp hfresh) now cfgOk)⟩
  | ctlSetchg en => exact ⟨.ok _, rfl, .done _ (h.setChgEn en)⟩
  | ctlEvaluate snap now packCurrent =>
    exact ⟨_, rfl, .require fun hready => .require fun htime => .require fun _ => .require fun _ =>
      .done _ (h.evaluateTick hready (decide_eq_true_iff.mp htime) _ snap packCurrent)⟩
  | _ => cases hu

/-- Outside U5 an operation writes nothing of the controller but `CHG_EN`, and that only from U7. -/
theorem Writes.ctlSound {u : UnitId} (hu : u ≠ .u5) {s t : State} (hw : Writes s u t)
    (h : CtlSound s.ctl) : CtlSound t.ctl := by
  cases hw with
  | u5 => exact absurd rfl hu
  | u7 chgEn => exact h.setChgEn chgEn
  | _ => exact h

theorem exec_leaves_ctlSound (i : Instr) {s : State} (h : CtlSound s.ctl) :
    ∃ a, exec i s = conclude s a ∧ Leaves (fun t => CtlSound t.ctl) a := by
  by_cases hu : unitOf i = .u5
  · exact exec_u5_leaves_ctlSound hu h
  · obtain ⟨a, hexec, hleaves⟩ := exec_leaves_writes i s
    exact ⟨a, hexec, fun r t ha => (hleaves r t ha).ctlSound hu h⟩

theorem exec_keeps_ctlSound (i : Instr) (s t : State) (h : CtlSound s.ctl)
    (hexec : exec i s = .next t) : CtlSound t.ctl := by
  rcases Leaves.of_exec (exec_leaves_ctlSound i h) hexec with ⟨r, v, hv, rfl⟩ | ⟨why, rfl⟩
  · exact hv
  · exact h

/-- Settles O57: the invariants are inductive together, as `CtlSound`; the times need that no not-ok tick
comes before `CTL.INIT`. -/
theorem stepKeepsControllerSound : Obligations.StepKeepsControllerSound := by
  intro s t hsoc hbms htimes hstep
  rw [← ctlSound_iff]
  exact step_keeps (P := fun s => CtlSound s.ctl) (fun _ h => h) (fun _ _ h => h) (fun _ _ h => h)
    exec_keeps_ctlSound ((ctlSound_iff s).mpr ⟨hsoc, hbms, htimes⟩) hstep

end Sys2Proof.Proofs
end

section
/-! PROOFS. The fault latches (46_latch): the three operations of U6, and what a latch remembers of a run. -/

namespace Sys2Proof.Proofs

open Sys2Proof Sys2Proof.Machine Sys2Proof.Safety

/-! ### `LATCH.UPDATE`, `LATCH.CLEAR` and `LATCH.READ` (46_latch R291 to R294) -/

theorem latchAfter_eq (old ok : Bool) : latchAfter old ok = if ok then old else true := by
  cases ok with
  | true => exact Bool.or_false old
  | false => exact Bool.or_true old

theorem isFaulted_eq (u : LatchUnit) : isFaulted u = !(u.obsImdOk && u.obsBmsOk && u.obsShdnOk) := by
  rw [isFaulted, Bool.not_and, Bool.not_and]

/-- Settles O43: `LATCH.UPDATE` has no precondition, and each latch goes by `latchAfter`. -/
theorem updateLatchesFalseSignals : Obligations.UpdateLatchesFalseSignals := by
  intro s imdOk bmsOk shdnValid
  simp only [← latchAfter_eq]
  rfl

theorem exec_latchClear (s : State) : exec .latchClear s =
    .next (finish (.cleared (!isFaulted s.latch)) { s with latch := clearLatches s.latch }) := rfl

theorem exec_latchClear_of_faulted {s : State} (h : isFaulted s.latch = true) :
    exec .latchClear s = .next (finish (.cleared false) s) := by
  rw [exec_latchClear, clearLatches, if_pos h, h]
  rfl

theorem exec_latchClear_of_not_faulted {s : State} (h : isFaulted s.latch = false) :
    exec .latchClear s = .next (finish (.cleared true) { s with latch :=
      { s.latch with latchBms := false, latchImd := false, latchShdn := false } }) := by
  rw [exec_latchClear, clearLatches, if_neg (Bool.eq_false_iff.mp h), h]
  rfl

theorem exec_latchRead (s : State) : exec .latchRead s = .next (finish
    (.latches s.latch.latchBms s.latch.latchImd s.latch.latchShdn (isFaulted s.latch)) s) := rfl

/-- Settles O44: `LATCH.CLEAR` in its two cases, and `LATCH.READ`. -/
theorem clearAndReadLatches : Obligations.ClearAndReadLatches := by
  intro s
  simp only [← isFaulted_eq]
  refine ⟨?_, exec_latchRead s⟩
  cases h : isFaulted s.latch with
  | true => exact exec_latchClear_of_faulted h
  | false => exact exec_latchClear_of_not_faulted h

/-! ### Only `LATCH.CLEAR` answers that it cleared -/

/-- If the answer is done, its result satisfies `P`; a refusal has no result. -/
def Yields (P : Result → Prop) (a : Answer) : Prop := ∀ r t, a = .ok (r, t) → P r

theorem Yields.done {P : Result → Prop} {r : Result} (t : State) (h : P r) : Yields P (.ok (r, t)) := by
  rintro _ _ ⟨⟩
  exact h

/-- A precondition or an operand form in front of an answer only adds refusals. -/
theorem Yields.bind {P : Result → Prop} {α : Type} {e : Except RefusalReason α} {f : α → Answer}
    (h : ∀ x, Yields P (f x)) : Yields P (e >>= f) := by
  cases e with
  | ok x => exact h x
  | error why => exact fun _ _ herror => nomatch herror

/-- The result is not that of a `LATCH.CLEAR` that cleared. -/
def NotCleared (r : Result) : Prop := r ≠ .cleared true

theorem yields_notCleared_readCommand (g : ReadGroup) (line : Nat) (addr : BitVec 4) (s : State) :
    Yields NotCleared (readCommand g line addr s) :=
  .bind fun _ => .bind fun _ => .done _ nofun

/-- `SCHED.NEXT` answers with a report of its round, or that it restarted. -/
theorem yields_notCleared_schedNext (s : State) :
    ∃ a, execSchedNext s = conclude s a ∧ Yields NotCleared a := by
  refine ⟨_, rfl, .bind fun _ => ?_⟩
  split
  · exact .done _ nofun
  · exact .done _ nofun

theorem exec_yields_notCleared {i : Instr} (hi : i ≠ .latchClear) (s : State) :
    ∃ a, exec i s = conclude s a ∧ Yields NotCleared a := by
  cases i with
  | latchClear => exact absurd rfl hi
  | schedNext => exact yields_notCleared_schedNext s
  | rdcva line addr | rdcvb line addr | rdcvc line addr | rdcvd line addr | rdauxa line addr
  | rdauxb line addr => exact ⟨_, rfl, yields_notCleared_readCommand _ line addr s⟩
  | pecBuild | codecBtemp _ | codecHumid _ | codecTherm _ | schedFaultdata | ctlSetchg _
  | latchUpdate _ _ _ | latchRead | wdKick => exact ⟨.ok _, rfl, .done _ nofun⟩
  | pecCompute _ | pecCheck _ _ _ | codecCfgpack _ | codecCfgunpack _ | codecGrpunpack _ | spiWakeup _
  | ctlInit _ _ | fsmAdvance _ _ _ _ _ => exact ⟨_, rfl, .bind fun _ => .done _ nofun⟩
  | codecCmd _ _ | codecCmpv _ _ | schedSetcfg _ _ | wrcfg _ _ | adc _ _ _ _ =>
    exact ⟨_, rfl, .bind fun _ => .bind fun _ => .done _ nofun⟩
  | spiRdreg _ _ | spiAdcstart _ _ _ =>
    exact ⟨_, rfl, .bind fun _ => .bind fun _ => .bind fun _ => .done _ nofun⟩
  | spiWrreg _ _ _ | ctlEvaluate _ _ _ =>
    exact ⟨_, rfl, .bind fun _ => .bind fun _ => .bind fun _ => .bind fun _ => .done _ nofun⟩

/-- An operation records one outcome. -/
theorem exec_outcomes {i : Instr} {s t : State} (h : exec i s = .next t) :
    ∃ o, t.outcomes = s.outcomes ++ [o] := by
  rcases Leaves.of_exec (exec_leaves_sameHostSide i s) h with ⟨r, v, hsame, rfl⟩ | ⟨why, rfl⟩
  · exact ⟨.done r, by rw [State_finish_outcomes, hsame.outcomes]⟩
  · exact ⟨.refused why, rfl⟩

theorem last_outcome_unique {l m : List OpOutcome} {o o' : OpOutcome} (h : l ++ [o] = m ++ [o']) : o = o' :=
  List.singleton_inj.mp (List.append_inj_right' h rfl)

theorem outcome_ne_cleared {i : Instr} (hi : i ≠ .latchClear) {s t : State} (h : exec i s = .next t)
    {o : OpOutcome} (ho : t.outcomes = s.outcomes ++ [o]) : o ≠ .done (.cleared true) := by
  rintro rfl
  obtain ⟨a, hexec, hyields⟩ := exec_yields_notCleared hi s
  rcases conclude_cases s a with ⟨r, v, ha, hc⟩ | ⟨why, -, hc⟩
  · cases h.symm.trans (hexec.trans hc)
    have hlast : OpOutcome.done r = .done (.cleared true) := last_outcome_unique ho
    exact hyields r v ha (OpOutcome.done.inj hlast)
  · cases h.symm.trans (hexec.trans hc)
    nomatch last_outcome_unique ho

/-! ### One latch under one operation -/

/-- The three signals that the unit latches. -/
inductive FaultSignal where
  | bms
  | imd
  | shdn

namespace FaultSignal

/-- The latch of the signal. -/
def latched (u : LatchUnit) : FaultSignal → Bool
  | .bms => u.latchBms
  | .imd => u.latchImd
  | .shdn => u.latchShdn

/-- The signal among the operands of `LATCH.UPDATE`. -/
def operand (imdOk bmsOk shdnValid : Bool) : FaultSignal → Bool
  | .bms => bmsOk
  | .imd => imdOk
  | .shdn => shdnValid

/-- The instruction is a `LATCH.UPDATE` that sees the signal false. -/
def SeenFalse : FaultSignal → Instr → Prop
  | .bms, i => ∃ m v, i = .latchUpdate m false v
  | .imd, i => ∃ b v, i = .latchUpdate false b v
  | .shdn, i => ∃ m b, i = .latchUpdate m b false

theorem seenFalse_latchUpdate (x : FaultSignal) (m b v : Bool) :
    x.SeenFalse (.latchUpdate m b v) ↔ x.operand m b v = false := by
  cases x with
  | bms => simp [SeenFalse, operand]
  | imd => simp [SeenFalse, operand]
  | shdn => simp [SeenFalse, operand]

theorem SeenFalse.exists_latchUpdate {x : FaultSignal} {i : Instr} (h : x.SeenFalse i) :
    ∃ m b v, i = .latchUpdate m b v := by
  cases x with
  | bms => obtain ⟨m, v, rfl⟩ := h; exact ⟨m, false, v, rfl⟩
  | imd => obtain ⟨b, v, rfl⟩ := h; exact ⟨false, b, v, rfl⟩
  | shdn => obtain ⟨m, b, rfl⟩ := h; exact ⟨m, b, false, rfl⟩

end FaultSignal

/-- `LATCH.UPDATE` sets the latch of a signal it sees false, and leaves that of a signal it sees true. -/
theorem latched_of_exec_latchUpdate (x : FaultSignal) {m b v : Bool} {s t : State}
    (h : exec (.latchUpdate m b v) s = .next t) :
    x.latched t.latch = if x.operand m b v then x.latched s.latch else true := by
  cases (updateLatchesFalseSignals s m b v).symm.trans h
  cases x with
  | _ => rfl

/-- A latch is set after `LATCH.CLEAR` when it was set before and the answer is not true. -/
theorem latched_of_exec_latchClear (x : FaultSignal) {s t : State} (h : exec .latchClear s = .next t)
    {o : OpOutcome} (ho : t.outcomes = s.outcomes ++ [o]) :
    x.latched t.latch = true ↔ x.latched s.latch = true ∧ o ≠ .done (.cleared true) := by
  cases hf : isFaulted s.latch with
  | true =>
    cases (exec_latchClear_of_faulted hf).symm.trans h
    obtain rfl : OpOutcome.done (.cleared false) = o := last_outcome_unique ho
    exact ⟨fun hset => ⟨hset, nofun⟩, And.left⟩
  | false =>
    cases (exec_latchClear_of_not_faulted hf).symm.trans h
    obtain rfl : OpOutcome.done (.cleared true) = o := last_outcome_unique ho
    have hclear : x.latched { s.latch with latchBms := false, latchImd := false, latchShdn := false } =
        false := by
      cases x with
      | _ => rfl
    exact ⟨fun hset => absurd (hclear.symm.trans hset) Bool.false_ne_true, fun h => absurd rfl h.2⟩

/-- Every other operation leaves the latches. -/
theorem exec_keeps_latch {i : Instr} (hupdate : ∀ m b v, i ≠ .latchUpdate m b v) (hclear : i ≠ .latchClear)
    {s t : State} (h : exec i s = .next t) : t.latch = s.latch := by
  cases i with
  | latchUpdate m b v => exact absurd rfl (hupdate m b v)
  | latchClear => exact absurd rfl hclear
  | latchRead =>
    cases (exec_latchRead s).symm.trans h
    rfl
  | _ => exact (exec_ownerFrame h).latch nofun

/-- After an operation with outcome `o` a latch is set exactly when the operation saw its signal false, or
the latch was set before and the operation did not clear it. -/
theorem latched_of_exec (x : FaultSignal) {i : Instr} {s t : State} (h : exec i s = .next t)
    {o : OpOutcome} (ho : t.outcomes = s.outcomes ++ [o]) :
    x.latched t.latch = true ↔
      x.SeenFalse i ∨ x.latched s.latch = true ∧ o ≠ .done (.cleared true) := by
  by_cases hclear : i = .latchClear
  · subst hclear
    have hunseen : ¬ x.SeenFalse .latchClear := fun hseen => nomatch hseen.exists_latchUpdate
    rw [latched_of_exec_latchClear x h ho, or_iff_right hunseen]
  have hne := outcome_ne_cleared hclear h ho
  rw [and_iff_left hne]
  by_cases hupdate : ∃ m b v, i = .latchUpdate m b v
  · obtain ⟨m, b, v, rfl⟩ := hupdate
    rw [latched_of_exec_latchUpdate x h, x.seenFalse_latchUpdate]
    cases x.operand m b v with
    | true => simp
    | false => simp
  · have hunseen : ¬ x.SeenFalse i := fun hseen => hupdate hseen.exists_latchUpdate
    rw [or_iff_right hunseen, exec_keeps_latch (fun m b v hi => hupdate ⟨m, b, v, hi⟩) hclear h]

/-! ### The latches over a run (46_latch R295 (a)) -/

/-- The outcomes recorded from `s` to `t` hold no `LATCH.CLEAR` that answered true. -/
def UnclearedSince (s t : State) : Prop :=
  ∃ l : List OpOutcome, t.outcomes = s.outcomes ++ l ∧ .done (.cleared true) ∉ l

theorem unclearedSince_iff {s t : State} {l : List OpOutcome} (h : t.outcomes = s.outcomes ++ l) :
    UnclearedSince s t ↔ .done (.cleared true) ∉ l := by
  refine ⟨?_, fun hl => ⟨l, h, hl⟩⟩
  rintro ⟨l', h', hl'⟩
  rwa [List.append_cancel_left (h.symm.trans h')]

theorem unclearedSince_self (s : State) : UnclearedSince s s :=
  ⟨[], (List.append_nil _).symm, List.not_mem_nil⟩

/-- The first of the outcomes apart from the others. -/
theorem unclearedSince_head {s v t : State} {o : OpOutcome} {l : List OpOutcome}
    (ho : v.outcomes = s.outcomes ++ [o]) (hl : t.outcomes = v.outcomes ++ l) :
    UnclearedSince s t ↔ o ≠ .done (.cleared true) ∧ UnclearedSince v t := by
  have hs : t.outcomes = s.outcomes ++ o :: l := by rw [hl, ho, List.append_assoc, List.singleton_append]
  rw [unclearedSince_iff hs, unclearedSince_iff hl, List.mem_cons, not_or, ne_comm]

/-- Some instruction of `ops`, run from `s` to `t`, satisfies `p`, and no `LATCH.CLEAR` after it answered
true. -/
def SinceClear (p : Instr → Prop) (ops : List Instr) (s t : State) : Prop :=
  ∃ (pre post : List Instr) (i : Instr) (u : State) (l : List OpOutcome), ops = pre ++ i :: post ∧ p i ∧
    execAll (pre ++ [i]) s = some u ∧ t.outcomes = u.outcomes ++ l ∧ .done (.cleared true) ∉ l

theorem not_sinceClear_nil (p : Instr → Prop) (s t : State) : ¬ SinceClear p [] s t := by
  rintro ⟨pre, post, i, u, l, hops, -⟩
  exact List.append_ne_nil_of_right_ne_nil pre (List.cons_ne_nil i post) hops.symm

theorem execAll_cons {i : Instr} {s v : State} (h : exec i s = .next v) (rest : List Instr) :
    execAll (i :: rest) s = execAll rest v := by
  rw [execAll, h]

/-- The instruction sought is the first of the run, or one of the run after it. -/
theorem sinceClear_cons {p : Instr → Prop} {i : Instr} {rest : List Instr} {s v t : State}
    (h : exec i s = .next v) :
    SinceClear p (i :: rest) s t ↔ p i ∧ UnclearedSince v t ∨ SinceClear p rest v t := by
  constructor
  · rintro ⟨pre, post, j, u, l, hops, hp, hrun, hl⟩
    cases pre with
    | nil =>
      obtain ⟨rfl, -⟩ := List.cons.inj hops
      cases (execAll_cons h []).symm.trans hrun
      exact .inl ⟨hp, l, hl⟩
    | cons k pre =>
      obtain ⟨rfl, hrest⟩ := List.cons.inj hops
      exact .inr ⟨pre, post, j, u, l, hrest, hp, (execAll_cons h _).symm.trans hrun, hl⟩
  · rintro (⟨hp, l, hl⟩ | ⟨pre, post, j, u, l, rfl, hp, hrun, hl⟩)
    · exact ⟨[], rest, i, v, l, rfl, hp, execAll_cons h [], hl⟩
    · exact ⟨i :: pre, post, j, u, l, rfl, hp, (execAll_cons h _).trans hrun, hl⟩

theorem execAll_cons_eq_some {i : Instr} {rest : List Instr} {s t : State}
    (h : execAll (i :: rest) s = some t) : ∃ v, exec i s = .next v ∧ execAll rest v = some t := by
  obtain ⟨a, ha⟩ := exec_concludes i s
  exact ⟨_, ha, (execAll_cons ha rest).symm.trans h⟩

/-- A run only adds to the recorded outcomes. -/
theorem execAll_outcomes {ops : List Instr} {s t : State} (h : execAll ops s = some t) :
    ∃ l, t.outcomes = s.outcomes ++ l := by
  induction ops generalizing s with
  | nil =>
    cases h
    exact ⟨[], (List.append_nil _).symm⟩
  | cons i rest ih =>
    obtain ⟨v, hexec, hrest⟩ := execAll_cons_eq_some h
    obtain ⟨o, ho⟩ := exec_outcomes hexec
    obtain ⟨l, hl⟩ := ih hrest
    exact ⟨[o] ++ l, by rw [hl, ho, List.append_assoc]⟩

/-- After a run from any state a latch is set exactly when its signal was seen false since the last clear,
or it was set before the run and the run did not clear it. -/
theorem latched_of_execAll (x : FaultSignal) {ops : List Instr} {s t : State}
    (h : execAll ops s = some t) :
    x.latched t.latch = true ↔
      SinceClear x.SeenFalse ops s t ∨ x.latched s.latch = true ∧ UnclearedSince s t := by
  induction ops generalizing s with
  | nil =>
    cases h
    rw [or_iff_right (not_sinceClear_nil _ _ _), and_iff_left (unclearedSince_self _)]
  | cons i rest ih =>
    obtain ⟨v, hexec, hrest⟩ := execAll_cons_eq_some h
    obtain ⟨o, ho⟩ := exec_outcomes hexec
    obtain ⟨l, hl⟩ := execAll_outcomes hrest
    rw [ih hrest, latched_of_exec x hexec ho, sinceClear_cons hexec, unclearedSince_head ho hl]
    tauto

theorem latched_iff_sinceClear {s t : State} {ops : List Instr}
    (hreset : s.latch = ⟨false, false, false, true, true, true⟩) (h : execAll ops s = some t)
    (x : FaultSignal) : x.latched t.latch = true ↔ SinceClear x.SeenFalse ops s t := by
  have hunset : x.latched s.latch = false := by
    rw [hreset]
    cases x with
    | _ => rfl
  rw [latched_of_execAll x h, hunset, or_iff_left fun hset => Bool.false_ne_true hset.1]

/-- Settles O45: the run from a state with no latch set, for each of the three signals. -/
theorem latchRemembersFalseSignal : Obligations.LatchRemembersFalseSignal := by
  intro s t ops hreset hrun
  have hlatch := latched_iff_sinceClear hreset hrun
  exact ⟨hlatch .bms, hlatch .imd, hlatch .shdn⟩

end Sys2Proof.Proofs
end

section
/-! PROOFS. The supervisor (47_acu_fsm): the next-state function, what a tick changes, the transitions of
`FSM.ADVANCE`, the kick, and the outputs and latches under every step. -/

namespace Sys2Proof.Proofs

open Sys2Proof Sys2Proof.Machine Sys2Proof.Safety

/-! ### The next state (47_acu_fsm R302 to R306) -/

section
variable {shdnValid chargeReq fault : Bool}

theorem nextAcuState_startup :
    nextAcuState .startup shdnValid chargeReq fault = if shdnValid then .active else .startup := rfl

theorem nextAcuState_active_charge : nextAcuState .active shdnValid true fault = .charging := rfl

theorem nextAcuState_active :
    nextAcuState .active shdnValid false fault = if fault then .faulted else .active := rfl

theorem nextAcuState_charging_fault : nextAcuState .charging shdnValid chargeReq true = .faulted := rfl

theorem nextAcuState_charging_done : nextAcuState .charging shdnValid false false = .active := rfl

theorem nextAcuState_charging :
    nextAcuState .charging shdnValid true false = if shdnValid then .charging else .startup := by
  cases shdnValid with
  | true => rfl
  | false => rfl

theorem nextAcuState_faulted : nextAcuState .faulted shdnValid chargeReq fault =
    if shdnValid = true ∧ fault = false then .startup else .faulted := by
  simp [nextAcuState_of_faulted]

/-- Only `STARTUP` and `FAULTED` itself follow `FAULTED` (47_acu_fsm R305). -/
theorem nextAcuState_of_eq_faulted {st : AcuState} (h : st = .faulted) :
    nextAcuState st shdnValid chargeReq fault = .startup ∨
      nextAcuState st shdnValid chargeReq fault = .faulted := by
  rw [h, nextAcuState_faulted]
  exact ite_eq_or_eq ..

end

/-! ### The actions of a tick (47_acu_fsm R316) -/

theorem tickActions_of_ne {n : AcuState} {u : FsmUnit} (h : n ≠ u.state) (now : Nat) (bmsFault : Bool) :
    tickActions n now bmsFault u = exitActions u.state ++ entryActions now n := if_neg h

theorem tickActions_self {u : FsmUnit} (h : u.state ≠ .faulted) (now : Nat) (bmsFault : Bool) :
    tickActions u.state now bmsFault u = [] := by
  rw [tickActions, if_pos rfl, if_neg h]

theorem tickActions_faulted_self {u : FsmUnit} (h : u.state = .faulted) (now : Nat) (bmsFault : Bool) :
    tickActions .faulted now bmsFault u =
      if now - u.faultEntry > tFaultedNudgeMs ∧ bmsFault = false then [.wdRearm] else [] := by
  rw [tickActions, if_pos h.symm, if_pos h, selfLoopActions]
  simp

/-- Leaving a state other than `FAULTED` has an action only in `CHARGING`. -/
theorem exitActions_of_ne_faulted {st : AcuState} (h : st ≠ .faulted) :
    exitActions st = if st = .charging then [.balDisable] else [] := by
  cases st with
  | faulted => exact absurd rfl h
  | _ => rfl

/-! ### What a tick changes -/

section
variable {s : State} (now : Nat) (bmsFault : Bool)

theorem tickState_self (h : s.fsm.state ≠ .faulted) : tickState s.fsm.state now bmsFault s = s := by
  rw [tickState, if_pos rfl, tickActions_self h]
  rfl

theorem tickState_faulted_self (h : s.fsm.state = .faulted) :
    tickState .faulted now bmsFault s =
      if now - s.fsm.faultEntry > tFaultedNudgeMs ∧ bmsFault = false then s.setWdArmed true else s := by
  rw [tickState, if_pos h.symm, tickActions, if_pos h.symm, if_pos h, selfLoop_eq]

theorem tickState_enter (h : s.fsm.state ≠ .faulted) :
    tickState .faulted now bmsFault s =
      { s with
        ctl := { s.ctl with chgEn := if s.fsm.state = .charging then false else s.ctl.chgEn }
        fsm := { s.fsm with state := .faulted, wdArmed := false, latchOut := true, faultEntry := now }
        ports := s.ports.emit (.latchEn true) } := by
  rw [tickState, if_neg h.symm, if_pos rfl, enterFaulted_eq now s h]

theorem tickState_leave (h : s.fsm.state = .faulted) :
    tickState .startup now bmsFault s =
      { s with
        fsm := { s.fsm with state := .startup, wdArmed := true, latchOut := false }
        ports := s.ports.emit (.latchEn false) } := by
  have hne : AcuState.startup ≠ s.fsm.state := by rw [h]; decide
  rw [tickState, if_neg hne, if_neg (by decide), if_pos h, leaveFaulted_eq now s h]

theorem tickState_move {n : AcuState} (h : s.fsm.state ≠ .faulted) (hn : n ≠ .faulted)
    (hne : n ≠ s.fsm.state) :
    tickState n now bmsFault s =
      { s with
        ctl := { s.ctl with chgEn :=
          if n = .charging then true
          else if s.fsm.state = .charging then false else s.ctl.chgEn }
        fsm := { s.fsm with state := n, wdArmed := if n = .startup then true else s.fsm.wdArmed } } := by
  rw [tickState, if_neg hne, if_neg hn, if_neg h, moveTo_eq n now s h hn]

end

/-- What a tick to state `n` can do: it stays where it is, inside or outside `FAULTED`, it enters `FAULTED`, it
leaves it, or it moves between other states. -/
inductive Tick (s : State) : AcuState → State → Prop where
  | stay (h : s.fsm.state ≠ .faulted) : Tick s s.fsm.state s
  | stayFaulted (armed : Bool) (h : s.fsm.state = .faulted) : Tick s .faulted (s.setWdArmed armed)
  | enter (chgEn : Bool) (now : Nat) (h : s.fsm.state ≠ .faulted) : Tick s .faulted
      { s with
        ctl := { s.ctl with chgEn := chgEn }
        fsm := { s.fsm with state := .faulted, wdArmed := false, latchOut := true, faultEntry := now }
        ports := s.ports.emit (.latchEn true) }
  | leave (h : s.fsm.state = .faulted) : Tick s .startup
      { s with
        fsm := { s.fsm with state := .startup, wdArmed := true, latchOut := false }
        ports := s.ports.emit (.latchEn false) }
  | move {n : AcuState} (chgEn : Bool) (h : s.fsm.state ≠ .faulted) (hn : n ≠ .faulted) : Tick s n
      { s with
        ctl := { s.ctl with chgEn := chgEn }
        fsm := { s.fsm with state := n, wdArmed := if n = .startup then true else s.fsm.wdArmed } }

theorem tick_tickState {n : AcuState} {s : State}
    (hnext : s.fsm.state = .faulted → n = .startup ∨ n = .faulted) (now : Nat) (bmsFault : Bool) :
    Tick s n (tickState n now bmsFault s) := by
  by_cases hs : s.fsm.state = .faulted
  · rcases hnext hs with rfl | rfl
    · rw [tickState_leave now bmsFault hs]
      exact .leave hs
    · rw [tickState_faulted_self now bmsFault hs]
      split_ifs
      · exact .stayFaulted true hs
      · exact .stayFaulted s.fsm.wdArmed hs
  · by_cases hn : n = .faulted
    · rw [hn, tickState_enter now bmsFault hs]
      exact .enter _ now hs
    · by_cases hself : n = s.fsm.state
      · rw [hself, tickState_self now bmsFault hs]
        exact .stay hs
      · rw [tickState_move now bmsFault hs hn hself]
        exact .move _ hs hn

/-- The frame of a tick: it ends in the new state, its port activity is `LATCH_EN` exactly when `FAULTED` is
entered or left, and it writes nothing else but `CHG_EN` and the supervisor's flags without `WD_OUT`. -/
theorem Tick.frame {s t : State} {n : AcuState} (h : Tick s n t) : ∃ (fsm : FsmUnit) (chgEn : Bool),
    t = { s with
      fsm := fsm, ctl := { s.ctl with chgEn := chgEn }
      ports := { s.ports with
        trace := s.ports.trace ++ (if (n = .faulted ↔ s.fsm.state = .faulted) then []
          else [.latchEn (decide (n = .faulted))]) } } ∧
    fsm.state = n ∧ fsm.wdOut = s.fsm.wdOut := by
  refine ⟨t.fsm, t.ctl.chgEn, ?_⟩
  cases h with
  | stay => simp
  | stayFaulted armed hs => simp [State.setWdArmed, hs]
  | enter _ _ hs => simp [Ports.emit, hs]
  | leave hs => simp [Ports.emit, hs]
  | move _ hs hn => simp [hs, hn]

/-! ### `FSM.ADVANCE` (47_acu_fsm R301) -/

section
variable {s : State} {now : Nat} {shdnValid chargeReq bmsFault imdFault : Bool} {n : AcuState}

theorem exec_fsmAdvance (htime : ¬ (s.fsm.state = .faulted ∧ now < s.fsm.faultEntry))
    (hn : nextAcuState s.fsm.state shdnValid chargeReq (bmsFault || imdFault) = n) :
    exec (.fsmAdvance now shdnValid chargeReq bmsFault imdFault) s = .next (finish
      (.advanced n (tickActions n now bmsFault s.fsm)) (tickState n now bmsFault s)) := by
  subst hn
  exact execFsmAdvance_of_time _ _ _ _ htime

/-- A tick outside `FAULTED` that takes no transition changes nothing. -/
theorem exec_fsmAdvance_self {st : AcuState} (hs : s.fsm.state = st) (hout : st ≠ .faulted)
    (hn : nextAcuState st shdnValid chargeReq (bmsFault || imdFault) = st) :
    exec (.fsmAdvance now shdnValid chargeReq bmsFault imdFault) s = .next (finish (.advanced st []) s) := by
  subst hs
  rw [exec_fsmAdvance (fun h => hout h.1) hn, tickActions_self hout, tickState_self now bmsFault hout]

/-- A transition between states other than `FAULTED`. -/
theorem exec_fsmAdvance_move {st : AcuState} (hs : s.fsm.state = st) (hout : st ≠ .faulted)
    (hn : nextAcuState st shdnValid chargeReq (bmsFault || imdFault) = n) (hnf : n ≠ .faulted)
    (hne : n ≠ st) :
    exec (.fsmAdvance now shdnValid chargeReq bmsFault imdFault) s = .next (finish
      (.advanced n (exitActions st ++ entryActions now n))
      { s with
        ctl := { s.ctl with chgEn :=
          if n = .charging then true else if st = .charging then false else s.ctl.chgEn }
        fsm := { s.fsm with state := n, wdArmed := if n = .startup then true else s.fsm.wdArmed } }) := by
  subst hs
  rw [exec_fsmAdvance (fun h => hout h.1) hn, tickActions_of_ne hne, tickState_move now bmsFault hout hnf hne]

end

/-- Settles O46: the frame of the tick, and the next-state function state by state. -/
theorem supervisorTransitions : Obligations.SupervisorTransitions := by
  intro s now shdnValid chargeReq bmsFault imdFault htime fault
  obtain ⟨n, hn⟩ : ∃ n, nextAcuState s.fsm.state shdnValid chargeReq fault = n := ⟨_, rfl⟩
  have htick : Tick s n (tickState n now bmsFault s) :=
    tick_tickState (hn ▸ nextAcuState_of_eq_faulted) now bmsFault
  obtain ⟨fsm, chgEn, hframe, hstate, hwdOut⟩ := htick.frame
  refine ⟨n, tickActions n now bmsFault s.fsm, fsm, chgEn, ?_, hstate, hwdOut, fun hs => ?_,
    fun hs hcharge => ?_, fun hs hcharge => ?_, fun hs hfault => ?_, fun hs hfault hcharge => ?_,
    fun hs hfault hcharge => ?_, fun hs => ?_⟩
  · rw [exec_fsmAdvance htime hn, hframe]
  · rw [← hn, hs, nextAcuState_startup]
  · rw [← hn, hs, hcharge, nextAcuState_active_charge]
  · rw [← hn, hs, hcharge, nextAcuState_active]
  · rw [← hn, hs, hfault, nextAcuState_charging_fault]
  · rw [← hn, hs, hfault, hcharge, nextAcuState_charging_done]
  · rw [← hn, hs, hfault, hcharge, nextAcuState_charging]
  · rw [← hn, hs, nextAcuState_faulted]

/-- Settles O11: the one precondition of `FSM.ADVANCE`. -/
theorem advanceRefusesTimeBackwards : Obligations.AdvanceRefusesTimeBackwards := by
  intro s now shdnValid chargeReq bmsFault imdFault hs hnow
  change execFsmAdvance now shdnValid chargeReq bmsFault imdFault s = _
  rw [execFsmAdvance, conclude_require]
  simp [hs, hnow]

/-- Settles O47: both states go to `FAULTED` on a fault, and only `CHARGING` has an exit action. -/
theorem entryToFaulted : Obligations.EntryToFaulted := by
  intro s now shdnValid chargeReq bmsFault imdFault hfault hs
  have hor : (bmsFault || imdFault) = true := (Bool.or_eq_true ..).mpr hfault
  have hnext : nextAcuState s.fsm.state shdnValid chargeReq (bmsFault || imdFault) = .faulted := by
    rcases hs with hs | ⟨hs, hcharge⟩
    · rw [hs, hor, nextAcuState_charging_fault]
    · rw [hs, hor, hcharge, nextAcuState_active, if_pos rfl]
  have hout : s.fsm.state ≠ .faulted := by
    rcases hs with hs | ⟨hs, -⟩
    · rw [hs]
      decide
    · rw [hs]
      decide
  rw [exec_fsmAdvance (fun h => hout h.1) hnext, tickActions_of_ne hout.symm, exitActions_of_ne_faulted hout,
    tickState_enter now bmsFault hout]
  rfl

/-- Settles O48: the exit actions of `FAULTED`, and the re-arming on entry to `STARTUP`. -/
theorem exitFromFaulted : Obligations.ExitFromFaulted := by
  intro s now chargeReq hs htime
  have hnext : nextAcuState s.fsm.state true chargeReq (false || false) = .startup := by rw [hs]; rfl
  have hne : AcuState.startup ≠ s.fsm.state := by rw [hs]; decide
  rw [exec_fsmAdvance (fun h => h.2.not_ge htime) hnext, tickActions_of_ne hne, tickState_leave now false hs, hs]
  rfl

/-- Settles O49: the actions and the effect of the self-loop have the same condition. -/
theorem faultedSelfLoop : Obligations.FaultedSelfLoop := by
  intro s now shdnValid chargeReq bmsFault imdFault hs htime hstay
  have hnot : ¬ (shdnValid = true ∧ (bmsFault || imdFault) = false) := by
    rintro ⟨hvalid, hfault⟩
    obtain ⟨hbms, himd⟩ := Bool.or_eq_false_iff.mp hfault
    simp [hvalid, hbms, himd] at hstay
  have hnext : nextAcuState s.fsm.state shdnValid chargeReq (bmsFault || imdFault) = .faulted := by
    rw [hs, nextAcuState_faulted, if_neg hnot]
  rw [exec_fsmAdvance (fun h => h.2.not_ge htime) hnext, tickActions_faulted_self hs,
    tickState_faulted_self now bmsFault hs]
  change _ = Host.Outcome.next (if now - s.fsm.faultEntry > tFaultedNudgeMs ∧ bmsFault = false then _ else _)
  split_ifs <;> rfl

/-- Settles O50: each transition is a move between states other than `FAULTED`, or none. -/
theorem chargingEntryAndExit : Obligations.ChargingEntryAndExit := by
  intro s now shdnValid bmsFault imdFault
  refine ⟨fun hs => ?_, fun hs => ?_, fun hs => ?_, fun hs chargeReq => ?_, fun hs => ?_, fun hs => ?_⟩
  · exact exec_fsmAdvance_move hs nofun rfl nofun nofun
  · exact exec_fsmAdvance_move hs nofun rfl nofun nofun
  · exact exec_fsmAdvance_move hs nofun rfl nofun nofun
  · cases shdnValid with
    | true => exact exec_fsmAdvance_move hs nofun rfl nofun nofun
    | false => exact exec_fsmAdvance_self hs nofun rfl
  · exact exec_fsmAdvance_self hs nofun rfl
  · exact exec_fsmAdvance_self hs nofun rfl

/-- Settles O51: the kick has no precondition, and toggles only while armed. -/
theorem kickTogglesWhileArmed : Obligations.KickTogglesWhileArmed :=
  fun s => conclude_ok s (kickWatchdog s) .none

/-! ### Sound outputs (47_acu_fsm R307, R309, R311) -/

theorem Tick.outputsSound {s t : State} {n : AcuState} (ht : Tick s n t) (h : outputsSound s) :
    Safety.outputsSound t := by
  obtain ⟨hlatch, harmed⟩ := h
  cases ht with
  | stay => exact ⟨hlatch, harmed⟩
  | stayFaulted armed hs => exact ⟨hlatch, fun hout => absurd hs hout⟩
  | enter => exact ⟨⟨fun _ => rfl, fun _ => rfl⟩, fun hout => absurd rfl hout⟩
  | leave => exact ⟨⟨nofun, nofun⟩, fun _ => rfl⟩
  | move _ hs hn =>
    refine ⟨⟨fun hon => absurd (hlatch.mp hon) hs, fun hf => absurd hf hn⟩, fun _ => ?_⟩
    exact (ite_eq_or_eq ..).elim id (fun hkept => hkept.trans (harmed hs))

/-- The two operations of U7 keep the outputs sound: a kick moves neither latch nor arming. -/
theorem exec_keeps_outputsSound {i : Instr} {s t : State} (h : outputsSound s) (hexec : exec i s = .next t) :
    outputsSound t := by
  cases i with
  | fsmAdvance now shdnValid chargeReq bmsFault imdFault =>
    have hleaves : ∃ a, exec (.fsmAdvance now shdnValid chargeReq bmsFault imdFault) s = conclude s a ∧
        Leaves outputsSound a :=
      ⟨_, rfl, .bind fun _ => .done _ ((tick_tickState nextAcuState_of_eq_faulted now bmsFault).outputsSound h)⟩
    rcases Leaves.of_exec hleaves hexec with ⟨r, v, hv, rfl⟩ | ⟨why, rfl⟩
    · exact hv
    · exact h
  | wdKick =>
    cases (kickTogglesWhileArmed s).symm.trans hexec
    split_ifs <;> exact h
  | _ =>
    have hfsm : t.fsm = s.fsm := (exec_ownerFrame hexec).fsm nofun
    rw [outputsSound, hfsm]
    exact h

/-! ### Sound latches (46_latch R291, R292) -/

/-- `LATCH.UPDATE` sets the latch of a signal it sees false; `LATCH.CLEAR` clears only when it last saw every
signal true. -/
theorem exec_keeps_latchesSound {i : Instr} {s t : State} (h : latchesSound s) (hexec : exec i s = .next t) :
    latchesSound t := by
  cases i with
  | latchUpdate imdOk bmsOk shdnValid =>
    cases (updateLatchesFalseSignals s imdOk bmsOk shdnValid).symm.trans hexec
    refine ⟨fun hbms => ?_, fun himd => ?_, fun hshdn => ?_⟩
    · exact if_neg (Bool.eq_false_iff.mp hbms)
    · exact if_neg (Bool.eq_false_iff.mp himd)
    · exact if_neg (Bool.eq_false_iff.mp hshdn)
  | latchClear =>
    cases hfaulted : isFaulted s.latch with
    | true =>
      cases (exec_latchClear_of_faulted hfaulted).symm.trans hexec
      exact h
    | false =>
      cases (exec_latchClear_of_not_faulted hfaulted).symm.trans hexec
      have hok : (s.latch.obsImdOk = true ∧ s.latch.obsBmsOk = true) ∧ s.latch.obsShdnOk = true := by
        simpa [isFaulted_eq] using hfaulted
      obtain ⟨⟨himd, hbms⟩, hshdn⟩ := hok
      exact ⟨fun hf => absurd (hbms.symm.trans hf) nofun, fun hf => absurd (himd.symm.trans hf) nofun,
        fun hf => absurd (hshdn.symm.trans hf) nofun⟩
  | _ =>
    have hlatch : t.latch = s.latch := exec_keeps_latch (by simp) (by simp) hexec
    rw [latchesSound, hlatch]
    exact h

/-- Settles O58: the two invariants are each inductive. -/
theorem stepKeepsOutputsSound : Obligations.StepKeepsOutputsSound := by
  intro s t houtputs hlatches hstep
  exact step_keeps (P := fun s => outputsSound s ∧ latchesSound s)
    (fun _ h => h) (fun _ _ h => h) (fun _ _ h => h)
    (fun _ _ _ h hexec => ⟨exec_keeps_outputsSound h.1 hexec, exec_keeps_latchesSound h.2 hexec⟩)
    ⟨houtputs, hlatches⟩ hstep

end Sys2Proof.Proofs
end

section
/-! PROOFS. Refusals (60_exceptions R344, R349): the operands out of range, and an illegal `GRP`. -/

namespace Sys2Proof.Proofs

open Sys2Proof Sys2Proof.Machine Sys2Proof.Safety

/-! ### Answers that refuse -/

/-- An operand form refuses by itself, or hands on a value with which the rest refuses. -/
theorem orRefuse_bind_eq_error {α : Type} {why : RefusalReason} {o : Option α} {f : α → Answer}
    (h : ∀ x, o = some x → f x = .error why) : (orRefuse why o >>= f) = .error why := by
  cases o with
  | none => rfl
  | some x => exact h x rfl

theorem conclude_of_eq_error {s : State} {a : Answer} {why : RefusalReason} (h : a = .error why) :
    conclude s a = .next (refuse why s) := by
  rw [h, conclude_error]

/-- With the table built its precondition leaves no trace. -/
theorem requireTable_bind_built {s : State} (hbuilt : s.pec.tableValid = true) (f : Unit → Answer) :
    (requireTable s >>= f) = f () := by
  rw [requireTable_built hbuilt, except_ok_bind]

theorem lt_of_field_eq_some {w v : Nat} {x : BitVec w} (h : field w v = some x) : v < 2 ^ w := by
  by_contra hge
  exact nomatch (field_of_ge (Nat.not_lt.mp hge)).symm.trans h

theorem length_of_sixBytes_eq_some {l : List Byte} {d : Six} (h : sixBytes l = some d) : l.length = 6 := by
  rw [sixBytes_eq_some.mp h, Six.toList_length]

theorem hasChipAt_of_chipAt {k : Config} {line : Nat} {addr : BitVec 4} {x : ChipConf × Nat}
    (h : chipAt k line addr = some x) : k.hasChipAt line addr = true := by
  have hmem : x ∈ k.chips.zipIdx := List.mem_of_find?_eq_some h
  have hselected := List.find?_some h
  exact List.any_eq_true.mpr ⟨x.1, List.fst_mem_of_mem_zipIdx hmem, hselected⟩

/-! ### The operations of the transport -/

section
variable {s : State} {c : Nat}

theorem exec_spiWrreg_refused {cc : Nat} {data : List Byte} (hbuilt : s.pec.tableValid = true)
    (hwf : (Instr.spiWrreg c cc data).wf s.conf = false) :
    exec (.spiWrreg c cc data) s = .next (refuse .badOperand s) := by
  refine conclude_of_eq_error ((requireTable_bind_built hbuilt _).trans ?_)
  refine orRefuse_bind_eq_error fun ch hch => orRefuse_bind_eq_error fun code hcode =>
    orRefuse_bind_eq_error fun d hd => ?_
  have hc := lt_nChips_of_chip hch
  have hcc : cc < 2048 := lt_of_field_eq_some hcode
  simp [Instr.wf, hc, hcc, length_of_sixBytes_eq_some hd] at hwf

theorem exec_spiRdreg_refused {cc : Nat} (hbuilt : s.pec.tableValid = true)
    (hwf : (Instr.spiRdreg c cc).wf s.conf = false) :
    exec (.spiRdreg c cc) s = .next (refuse .badOperand s) := by
  refine conclude_of_eq_error ((requireTable_bind_built hbuilt _).trans ?_)
  refine orRefuse_bind_eq_error fun ch hch => orRefuse_bind_eq_error fun code hcode => ?_
  have hc := lt_nChips_of_chip hch
  have hcc : cc < 2048 := lt_of_field_eq_some hcode
  simp [Instr.wf, hc, hcc] at hwf

theorem exec_spiAdcstart_refused {kind : AdcKind} {mode : Nat} (hbuilt : s.pec.tableValid = true)
    (hwf : (Instr.spiAdcstart c kind mode).wf s.conf = false) :
    exec (.spiAdcstart c kind mode) s = .next (refuse .badOperand s) := by
  refine conclude_of_eq_error ((requireTable_bind_built hbuilt _).trans ?_)
  refine orRefuse_bind_eq_error fun ch hch => orRefuse_bind_eq_error fun m hm => ?_
  have hc := lt_nChips_of_chip hch
  have hmode : mode < 4 := lt_of_field_eq_some hm
  simp [Instr.wf, hc, hmode] at hwf

end

/-! ### The wire commands -/

/-- Every wire command asks for the table, then for the chip that its line and its address select, and is
well-formed when there is such a chip (entry 19). -/
theorem exec_wire {i : Instr} (hi : unitOf i = .wire) (s : State) :
    ∃ (line : Nat) (addr : BitVec 4) (f : ChipConf × Nat → Answer),
      i.wf s.conf = s.conf.hasChipAt line addr ∧
      exec i s = conclude s (requireTable s >>= fun _ =>
        orRefuse .badOperand (chipAt s.conf line addr) >>= f) := by
  cases i with
  | wrcfg line addr | rdcva line addr | rdcvb line addr | rdcvc line addr | rdcvd line addr
  | rdauxa line addr | rdauxb line addr | adc line addr _ _ => exact ⟨line, addr, _, rfl, rfl⟩
  | _ => cases hi

theorem exec_wire_refused {i : Instr} (hi : unitOf i = .wire) {s : State} (hbuilt : s.pec.tableValid = true)
    (hwf : i.wf s.conf = false) : exec i s = .next (refuse .badOperand s) := by
  obtain ⟨line, addr, f, hwf', hexec⟩ := exec_wire hi s
  rw [hexec]
  refine conclude_of_eq_error ((requireTable_bind_built hbuilt _).trans (orRefuse_bind_eq_error fun x hx => ?_))
  have hchip : i.wf s.conf = true := hwf'.trans (hasChipAt_of_chipAt hx)
  exact absurd (hchip.symm.trans hwf) nofun

/-- Settles O9: each operation by its operand forms, which accept exactly the well-formed operands. -/
theorem operandsOutOfRangeRefused : Obligations.OperandsOutOfRangeRefused := by
  intro s hbuilt i hwf
  refine ⟨?_, ?_, ?_⟩
  · rintro (⟨addr, cc, rfl⟩ | ⟨f, rfl⟩)
    · have hrange : ¬ (addr < 16 ∧ cc < 2048) := by simpa [Instr.wf] using hwf
      rw [codecCmdBytes, if_neg hrange]
    · exact (cfgPackBytes s f).2 hwf
  · rintro ⟨line, rfl⟩
    have hunused : ¬ usesLine s.conf line = true := Bool.eq_false_iff.mp hwf
    rw [exec_spiWakeup, if_neg hunused]
  · rintro (hwire | ⟨d, rfl⟩ | ⟨d, rfl⟩ | ⟨u, o, rfl⟩ | ⟨c, cc, d, rfl⟩ | ⟨c, cc, rfl⟩ | ⟨c, k, m, rfl⟩ |
      ⟨c, f, rfl⟩)
    · exact exec_wire_refused hwire hbuilt hwf
    · exact cfgUnpackFields.2.2 s d (beq_eq_false_iff_ne.mp hwf)
    · exact grpUnpackCodes.2 s d (beq_eq_false_iff_ne.mp hwf)
    · have hrange : ¬ (u < 4096 ∧ o < 4096) := by simpa [Instr.wf] using hwf
      rw [cmpvValues, if_neg (by omega)]
    · exact exec_spiWrreg_refused hbuilt hwf
    · exact exec_spiRdreg_refused hbuilt hwf
    · exact exec_spiAdcstart_refused hbuilt hwf
    · exact exec_schedSetcfg_refused ((Bool.and_eq_false_iff.mp hwf).imp_left fun hc =>
        Nat.not_lt.mp (of_decide_eq_false hc))

/-! ### An illegal `GRP` (60_exceptions R349) -/

/-- Settles O34: such a `GRP` names no group, and the restart is at the bits of `CV_A`. -/
theorem nextRestartsOnImpossibleGroup : Obligations.NextRestartsOnImpossibleGroup := by
  intro s hbuilt hgrp
  have hnone : groupOfBits s.sched.grp = none := groupOfBits_eq_none.mpr hgrp
  simp [exec, execSchedNext, requireTable_built hbuilt, hnone, schedRestart, groupBits]

end Sys2Proof.Proofs
end

section
/-! PROOFS. Reset and hazards (70_reset_and_hazards): what a step runs, and the operations before
`PEC.BUILD`. -/

namespace Sys2Proof.Proofs

open Sys2Proof Sys2Proof.Machine Sys2Proof.Safety

/-! ### One step (70_reset R383) -/

theorem step_of_decode_ok {s : State} {r : Request} {rest : List Request} {i : Instr}
    (hreqs : s.reqs = r :: rest) (hdecode : decode s.conf.codes r = .ok i) :
    step s = exec i (fetched rest s) := by
  rw [step, hreqs]
  simp only [hdecode]

theorem step_of_no_request {s : State} (hreqs : s.reqs = []) : step s = .next (redrawOkOut s) := by
  rw [step, hreqs]

/-- Settles O3: the fetch takes the request and redraws the undriven port; idling only redraws it. -/
theorem stepRunsDecodedRequest : Obligations.StepRunsDecodedRequest :=
  ⟨fun _ _ _ _ hreqs hdecode => step_of_decode_ok hreqs hdecode, fun _ hreqs => step_of_no_request hreqs⟩

/-! ### Before `PEC.BUILD` (70_reset R395) -/

theorem conclude_requireTable_unbuilt {s : State} (h : s.pec.tableValid = false) (f : Unit → Answer) :
    conclude s (requireTable s >>= f) = .next (refuse .tableNotBuilt s) := by
  rw [requireTable_unbuilt h, except_error_bind, conclude_error]

/-- Settles O8: each of these operations asks for the table before anything else. -/
theorem refusedBeforeBuild : Obligations.RefusedBeforeBuild := by
  intro s hunbuilt i hi
  have hasks : ∃ f, exec i s = conclude s (requireTable s >>= f) := by
    rcases hi with ⟨d, rfl⟩ | ⟨d, a, b, rfl⟩ | ⟨c, cc, d, rfl⟩ | ⟨c, cc, rfl⟩ | ⟨c, k, m, rfl⟩ | rfl | hwire
    · exact ⟨_, rfl⟩
    · exact ⟨_, rfl⟩
    · exact ⟨_, rfl⟩
    · exact ⟨_, rfl⟩
    · exact ⟨_, rfl⟩
    · exact ⟨_, rfl⟩
    · obtain ⟨_, _, _, -, hexec⟩ := exec_wire hwire s
      exact ⟨_, hexec⟩
  obtain ⟨f, hexec⟩ := hasks
  rw [hexec, conclude_requireTable_unbuilt hunbuilt]
  rfl

end Sys2Proof.Proofs
end
